-- ==== Sys2Proof/Word.lean ====
section
/-!
DEFINITION. The word types of the core (00_scope.md R13, R18): 32-bit words, 16-bit halfwords, 8-bit bytes, the two
widths of a register field, and one bit as a bit vector. Mode numbers are the 5-bit codes of 10_state.md R55.
-/

namespace Sys2Proof

/-- A 32-bit register, address or bus word. -/
abbrev Word := BitVec 32
/-- A 16-bit halfword: a Thumb instruction, a halfword transfer. -/
abbrev Half := BitVec 16
/-- An 8-bit byte of memory. -/
abbrev Byte := BitVec 8
/-- A 4-bit register field, R0 to R15 (10_state.md R43). -/
abbrev Reg := BitVec 4
/-- A 3-bit Thumb register field, R0 to R7 (10_state.md R43). -/
abbrev LowReg := BitVec 3

/-- A Bool as one bit of an encoding. -/
def bit (b : Bool) : BitVec 1 := if b then 1#1 else 0#1

end Sys2Proof
end

