-- ==== Sys2Proof/Syntax.lean ====
section
/-!
DEFINITION. The two instruction sets as syntax: one constructor for each of the 164 rows of spec/opcode_table.json, in the
table's order. A constructor carries every bit of its encoding that the row does not fix, the SBZ and SBO fields included
(30_encoding.md R197), so that no bit is dropped. `Defect` names the UNPREDICTABLE cases (93_implementation_defined.md U1, U2,
U10).
-/

namespace Sys2Proof

/-- The condition field (30_encoding.md R172); `nv` is 0b1111, UNPREDICTABLE in v4T (R173). -/
inductive Cond where
  | eq | ne | cs | cc | mi | pl | vs | vc | hi | ls | ge | lt | gt | le | al | nv
deriving DecidableEq, Repr

/-- The four shift types (30_encoding.md R176). -/
inductive ShiftType where
  | lsl | lsr | asr | ror
deriving DecidableEq, Repr

/-- Operand 2: a register shifted by an immediate (30_encoding.md R176). -/
structure ShiftImm where
  amount : BitVec 5
  ty : ShiftType
  rm : Reg
deriving DecidableEq, Repr

/-- Operand 2: a register shifted by a register (30_encoding.md R176). -/
structure ShiftReg where
  rs : Reg
  ty : ShiftType
  rm : Reg
deriving DecidableEq, Repr

/-- Operand 2: a rotated 8-bit immediate (30_encoding.md R176). -/
structure RotImm where
  rot : BitVec 4
  imm8 : BitVec 8
deriving DecidableEq, Repr

/-- Indexing of LDR, STR, LDRB, STRB (43_arm_load_store.md R342); the post-indexed user form is a row of its own. -/
inductive Index where
  | offset | pre | post
deriving DecidableEq, Repr

/-- Fields of a word or byte transfer (30_encoding.md R183): indexing, direction of the offset, base, transfer register. -/
structure Mode2 where
  idx : Index
  u : Bool
  rn : Reg
  rd : Reg
deriving DecidableEq, Repr

/-- Fields of a halfword or signed transfer (30_encoding.md R181). `hi` is immH or SBZ, `lo` is immL or Rm, by `i`. -/
structure Mode3 where
  p : Bool
  u : Bool
  i : Bool
  w : Bool
  rn : Reg
  rd : Reg
  hi : BitVec 4
  lo : BitVec 4
deriving DecidableEq, Repr

/-- Fields of LDC and STC (30_encoding.md R186). -/
structure CopMem where
  p : Bool
  u : Bool
  n : Bool
  w : Bool
  rn : Reg
  crd : BitVec 4
  cp : BitVec 4
  off : BitVec 8
deriving DecidableEq, Repr

/-- Fields of CDP (30_encoding.md R187). -/
structure CopData where
  op1 : BitVec 4
  crn : BitVec 4
  crd : BitVec 4
  cp : BitVec 4
  op2 : BitVec 3
  crm : BitVec 4
deriving DecidableEq, Repr

/-- Fields of MCR and MRC (30_encoding.md R188). -/
structure CopReg where
  op1 : BitVec 3
  crn : BitVec 4
  rd : Reg
  cp : BitVec 4
  op2 : BitVec 3
  crm : BitVec 4
deriving DecidableEq, Repr

/-- The UNPREDICTABLE cases the model refuses (93_implementation_defined.md U1, U2, U10, U11). The first group is seen in the
instruction alone, the second only in the state it meets. -/
inductive Defect where
  /-- cond = 0b1111 (30_encoding.md R173). -/
  | condNever
  /-- A non-zero SBZ field (R197). -/
  | sbz
  /-- A SBO field that is not all ones (R197). -/
  | sbo
  /-- R15 in a forbidden position (R251, R300, R320, R340, R341, R420, R481 and the corner cases of each rule). -/
  | pcOperand
  /-- Equal registers where forbidden (R301, R420, R556). -/
  | regOverlap
  /-- An empty register list (R391, R222). -/
  | emptyList
  /-- Write-back with the base in the list (R391); in a Thumb STMIA not the lowest of it (R222, R629), where the run is one that refuses
  such (log 45). -/
  | baseInList
  /-- Write-back to R15 (R342, R483). -/
  | writebackPc
  /-- Write-back with Rn = Rd (R342). -/
  | writebackDest
  /-- Register offset with write-back and Rm = Rn (R342). -/
  | writebackIndex
  /-- Mode 3 with P = 0 and W = 1 (R342). -/
  | postWriteback
  /-- LDM (2) or STM (2) with write-back (R398, R399). -/
  | userListWriteback
  /-- Thumb format 5 with two low registers (R222). -/
  | bothLow
  /-- SPSR access in User or System mode (R53, R321, R324, R252, R400). -/
  | noSpsr
  /-- LDM (2) or STM (2) in User or System mode (R398, R399). -/
  | noUserBank
  /-- A mode number that is not one of the seven (R325, R728). -/
  | illegalMode
  /-- MSR trying to set T in a privileged mode (R324, R326). -/
  | setThumb
  /-- A data-processing result written to R15 with bits 1:0 not 00 (R49, R252). -/
  | pcUnaligned
  /-- BX to an ARM address with bit 1 set (R436, R612). -/
  | bxUnaligned
  /-- LDR of R15 from an address that is not word aligned (R346). -/
  | ldrPcUnaligned
  /-- A halfword transfer at an odd address (R132, U10). -/
  | halfUnaligned
  /-- A Thumb word transfer at an address that is not word aligned (48_thumb_memory_branch.md R591, U11), where the run is one that
  refuses such (log 45). -/
  | wordUnaligned
deriving DecidableEq, Repr

/-- One constructor per row of spec/opcode_table.json, in the table's order. -/
inductive Instr where
  /-- MUL, row 0 (R304). -/
  | mul (c : Cond) (s : Bool) (rd : Reg) (sbz : Reg) (rs : Reg) (rm : Reg)
  /-- MLA, row 1 (R305). -/
  | mla (c : Cond) (s : Bool) (rd : Reg) (rn : Reg) (rs : Reg) (rm : Reg)
  /-- UMULL, row 2 (R306). -/
  | umull (c : Cond) (s : Bool) (rdHi : Reg) (rdLo : Reg) (rs : Reg) (rm : Reg)
  /-- UMLAL, row 3 (R307). -/
  | umlal (c : Cond) (s : Bool) (rdHi : Reg) (rdLo : Reg) (rs : Reg) (rm : Reg)
  /-- SMULL, row 4 (R308). -/
  | smull (c : Cond) (s : Bool) (rdHi : Reg) (rdLo : Reg) (rs : Reg) (rm : Reg)
  /-- SMLAL, row 5 (R309). -/
  | smlal (c : Cond) (s : Bool) (rdHi : Reg) (rdLo : Reg) (rs : Reg) (rm : Reg)
  /-- UNDEFINED, row 6 (R191). -/
  | undArith (c : Cond) (body : BitVec 28)
  /-- SWP, row 7 (R420). -/
  | swp (c : Cond) (rn : Reg) (rd : Reg) (sbz : Reg) (rm : Reg)
  /-- SWPB, row 8 (R421). -/
  | swpb (c : Cond) (rn : Reg) (rd : Reg) (sbz : Reg) (rm : Reg)
  /-- UNDEFINED, row 9 (R193 (a)). -/
  | undLsA (c : Cond) (body : BitVec 28)
  /-- STRH, row 10 (R363). -/
  | strh (c : Cond) (m : Mode3)
  /-- LDRH, row 11 (R360). -/
  | ldrh (c : Cond) (m : Mode3)
  /-- LDRSB, row 12 (R362). -/
  | ldrsb (c : Cond) (m : Mode3)
  /-- LDRSH, row 13 (R361). -/
  | ldrsh (c : Cond) (m : Mode3)
  /-- UNDEFINED, row 14 (R193 (b)). -/
  | undLsB (c : Cond) (body : BitVec 28)
  /-- MRS, row 15 (R321). -/
  | mrs (c : Cond) (r : Bool) (sbo : Reg) (rd : Reg) (sbzHi : Reg) (sbzLo : Reg)
  /-- MSR, row 16 (R324). -/
  | msrReg (c : Cond) (r : Bool) (mask : Reg) (sbo : Reg) (sbz : Reg) (rm : Reg)
  /-- BX, row 17 (R436). -/
  | bx (c : Cond) (sbo : BitVec 12) (rm : Reg)
  /-- UNDEFINED, row 18 (R192). -/
  | undCtlReg (c : Cond) (body : BitVec 28)
  /-- AND, row 19 (R263). -/
  | andShiftImm (c : Cond) (s : Bool) (rn : Reg) (rd : Reg) (o : ShiftImm)
  /-- AND, row 20 (R263). -/
  | andShiftReg (c : Cond) (s : Bool) (rn : Reg) (rd : Reg) (o : ShiftReg)
  /-- EOR, row 21 (R264). -/
  | eorShiftImm (c : Cond) (s : Bool) (rn : Reg) (rd : Reg) (o : ShiftImm)
  /-- EOR, row 22 (R264). -/
  | eorShiftReg (c : Cond) (s : Bool) (rn : Reg) (rd : Reg) (o : ShiftReg)
  /-- SUB, row 23 (R265). -/
  | subShiftImm (c : Cond) (s : Bool) (rn : Reg) (rd : Reg) (o : ShiftImm)
  /-- SUB, row 24 (R265). -/
  | subShiftReg (c : Cond) (s : Bool) (rn : Reg) (rd : Reg) (o : ShiftReg)
  /-- RSB, row 25 (R266). -/
  | rsbShiftImm (c : Cond) (s : Bool) (rn : Reg) (rd : Reg) (o : ShiftImm)
  /-- RSB, row 26 (R266). -/
  | rsbShiftReg (c : Cond) (s : Bool) (rn : Reg) (rd : Reg) (o : ShiftReg)
  /-- ADD, row 27 (R267). -/
  | addShiftImm (c : Cond) (s : Bool) (rn : Reg) (rd : Reg) (o : ShiftImm)
  /-- ADD, row 28 (R267). -/
  | addShiftReg (c : Cond) (s : Bool) (rn : Reg) (rd : Reg) (o : ShiftReg)
  /-- ADC, row 29 (R268). -/
  | adcShiftImm (c : Cond) (s : Bool) (rn : Reg) (rd : Reg) (o : ShiftImm)
  /-- ADC, row 30 (R268). -/
  | adcShiftReg (c : Cond) (s : Bool) (rn : Reg) (rd : Reg) (o : ShiftReg)
  /-- SBC, row 31 (R269). -/
  | sbcShiftImm (c : Cond) (s : Bool) (rn : Reg) (rd : Reg) (o : ShiftImm)
  /-- SBC, row 32 (R269). -/
  | sbcShiftReg (c : Cond) (s : Bool) (rn : Reg) (rd : Reg) (o : ShiftReg)
  /-- RSC, row 33 (R270). -/
  | rscShiftImm (c : Cond) (s : Bool) (rn : Reg) (rd : Reg) (o : ShiftImm)
  /-- RSC, row 34 (R270). -/
  | rscShiftReg (c : Cond) (s : Bool) (rn : Reg) (rd : Reg) (o : ShiftReg)
  /-- TST, row 35 (R271). -/
  | tstShiftImm (c : Cond) (rn : Reg) (sbz : Reg) (o : ShiftImm)
  /-- TST, row 36 (R271). -/
  | tstShiftReg (c : Cond) (rn : Reg) (sbz : Reg) (o : ShiftReg)
  /-- TEQ, row 37 (R272). -/
  | teqShiftImm (c : Cond) (rn : Reg) (sbz : Reg) (o : ShiftImm)
  /-- TEQ, row 38 (R272). -/
  | teqShiftReg (c : Cond) (rn : Reg) (sbz : Reg) (o : ShiftReg)
  /-- CMP, row 39 (R273). -/
  | cmpShiftImm (c : Cond) (rn : Reg) (sbz : Reg) (o : ShiftImm)
  /-- CMP, row 40 (R273). -/
  | cmpShiftReg (c : Cond) (rn : Reg) (sbz : Reg) (o : ShiftReg)
  /-- CMN, row 41 (R274). -/
  | cmnShiftImm (c : Cond) (rn : Reg) (sbz : Reg) (o : ShiftImm)
  /-- CMN, row 42 (R274). -/
  | cmnShiftReg (c : Cond) (rn : Reg) (sbz : Reg) (o : ShiftReg)
  /-- ORR, row 43 (R275). -/
  | orrShiftImm (c : Cond) (s : Bool) (rn : Reg) (rd : Reg) (o : ShiftImm)
  /-- ORR, row 44 (R275). -/
  | orrShiftReg (c : Cond) (s : Bool) (rn : Reg) (rd : Reg) (o : ShiftReg)
  /-- MOV, row 45 (R276). -/
  | movShiftImm (c : Cond) (s : Bool) (sbz : Reg) (rd : Reg) (o : ShiftImm)
  /-- MOV, row 46 (R276). -/
  | movShiftReg (c : Cond) (s : Bool) (sbz : Reg) (rd : Reg) (o : ShiftReg)
  /-- BIC, row 47 (R277). -/
  | bicShiftImm (c : Cond) (s : Bool) (rn : Reg) (rd : Reg) (o : ShiftImm)
  /-- BIC, row 48 (R277). -/
  | bicShiftReg (c : Cond) (s : Bool) (rn : Reg) (rd : Reg) (o : ShiftReg)
  /-- MVN, row 49 (R278). -/
  | mvnShiftImm (c : Cond) (s : Bool) (sbz : Reg) (rd : Reg) (o : ShiftImm)
  /-- MVN, row 50 (R278). -/
  | mvnShiftReg (c : Cond) (s : Bool) (sbz : Reg) (rd : Reg) (o : ShiftReg)
  /-- MSR, row 51 (R324). -/
  | msrImm (c : Cond) (r : Bool) (mask : Reg) (sbo : Reg) (o : RotImm)
  /-- UNDEFINED, row 52 (R192). -/
  | undCtlImm (c : Cond) (body : BitVec 28)
  /-- AND, row 53 (R263). -/
  | andImm (c : Cond) (s : Bool) (rn : Reg) (rd : Reg) (o : RotImm)
  /-- EOR, row 54 (R264). -/
  | eorImm (c : Cond) (s : Bool) (rn : Reg) (rd : Reg) (o : RotImm)
  /-- SUB, row 55 (R265). -/
  | subImm (c : Cond) (s : Bool) (rn : Reg) (rd : Reg) (o : RotImm)
  /-- RSB, row 56 (R266). -/
  | rsbImm (c : Cond) (s : Bool) (rn : Reg) (rd : Reg) (o : RotImm)
  /-- ADD, row 57 (R267). -/
  | addImm (c : Cond) (s : Bool) (rn : Reg) (rd : Reg) (o : RotImm)
  /-- ADC, row 58 (R268). -/
  | adcImm (c : Cond) (s : Bool) (rn : Reg) (rd : Reg) (o : RotImm)
  /-- SBC, row 59 (R269). -/
  | sbcImm (c : Cond) (s : Bool) (rn : Reg) (rd : Reg) (o : RotImm)
  /-- RSC, row 60 (R270). -/
  | rscImm (c : Cond) (s : Bool) (rn : Reg) (rd : Reg) (o : RotImm)
  /-- TST, row 61 (R271). -/
  | tstImm (c : Cond) (rn : Reg) (sbz : Reg) (o : RotImm)
  /-- TEQ, row 62 (R272). -/
  | teqImm (c : Cond) (rn : Reg) (sbz : Reg) (o : RotImm)
  /-- CMP, row 63 (R273). -/
  | cmpImm (c : Cond) (rn : Reg) (sbz : Reg) (o : RotImm)
  /-- CMN, row 64 (R274). -/
  | cmnImm (c : Cond) (rn : Reg) (sbz : Reg) (o : RotImm)
  /-- ORR, row 65 (R275). -/
  | orrImm (c : Cond) (s : Bool) (rn : Reg) (rd : Reg) (o : RotImm)
  /-- MOV, row 66 (R276). -/
  | movImm (c : Cond) (s : Bool) (sbz : Reg) (rd : Reg) (o : RotImm)
  /-- BIC, row 67 (R277). -/
  | bicImm (c : Cond) (s : Bool) (rn : Reg) (rd : Reg) (o : RotImm)
  /-- MVN, row 68 (R278). -/
  | mvnImm (c : Cond) (s : Bool) (sbz : Reg) (rd : Reg) (o : RotImm)
  /-- STRT, row 69 (R352). -/
  | strtImm (c : Cond) (u : Bool) (rn : Reg) (rd : Reg) (imm : BitVec 12)
  /-- LDRT, row 70 (R350). -/
  | ldrtImm (c : Cond) (u : Bool) (rn : Reg) (rd : Reg) (imm : BitVec 12)
  /-- STRBT, row 71 (R353). -/
  | strbtImm (c : Cond) (u : Bool) (rn : Reg) (rd : Reg) (imm : BitVec 12)
  /-- LDRBT, row 72 (R351). -/
  | ldrbtImm (c : Cond) (u : Bool) (rn : Reg) (rd : Reg) (imm : BitVec 12)
  /-- STR, row 73 (R348). -/
  | strImm (c : Cond) (a : Mode2) (imm : BitVec 12)
  /-- LDR, row 74 (R346). -/
  | ldrImm (c : Cond) (a : Mode2) (imm : BitVec 12)
  /-- STRB, row 75 (R349). -/
  | strbImm (c : Cond) (a : Mode2) (imm : BitVec 12)
  /-- LDRB, row 76 (R347). -/
  | ldrbImm (c : Cond) (a : Mode2) (imm : BitVec 12)
  /-- UNDEFINED, row 77 (R190). -/
  | undSpace (c : Cond) (body : BitVec 28)
  /-- STRT, row 78 (R352). -/
  | strtReg (c : Cond) (u : Bool) (rn : Reg) (rd : Reg) (o : ShiftImm)
  /-- LDRT, row 79 (R350). -/
  | ldrtReg (c : Cond) (u : Bool) (rn : Reg) (rd : Reg) (o : ShiftImm)
  /-- STRBT, row 80 (R353). -/
  | strbtReg (c : Cond) (u : Bool) (rn : Reg) (rd : Reg) (o : ShiftImm)
  /-- LDRBT, row 81 (R351). -/
  | ldrbtReg (c : Cond) (u : Bool) (rn : Reg) (rd : Reg) (o : ShiftImm)
  /-- STR, row 82 (R348). -/
  | strReg (c : Cond) (a : Mode2) (o : ShiftImm)
  /-- LDR, row 83 (R346). -/
  | ldrReg (c : Cond) (a : Mode2) (o : ShiftImm)
  /-- STRB, row 84 (R349). -/
  | strbReg (c : Cond) (a : Mode2) (o : ShiftImm)
  /-- LDRB, row 85 (R347). -/
  | ldrbReg (c : Cond) (a : Mode2) (o : ShiftImm)
  /-- STM, row 86 (R397). -/
  | stm1 (c : Cond) (p : Bool) (u : Bool) (w : Bool) (rn : Reg) (list : BitVec 16)
  /-- LDM, row 87 (R395). -/
  | ldm1 (c : Cond) (p : Bool) (u : Bool) (w : Bool) (rn : Reg) (list : BitVec 16)
  /-- STM, row 88 (R399). -/
  | stm2 (c : Cond) (p : Bool) (u : Bool) (w : Bool) (rn : Reg) (list : BitVec 16)
  /-- LDM, row 89 (R398). -/
  | ldm2 (c : Cond) (p : Bool) (u : Bool) (w : Bool) (rn : Reg) (list : BitVec 15)
  /-- LDM, row 90 (R400). -/
  | ldm3 (c : Cond) (p : Bool) (u : Bool) (w : Bool) (rn : Reg) (list : BitVec 15)
  /-- B, row 91 (R431). -/
  | b (c : Cond) (off : BitVec 24)
  /-- BL, row 92 (R432). -/
  | bl (c : Cond) (off : BitVec 24)
  /-- UNDEFINED, row 93 (R194). -/
  | undCop (c : Cond) (body : BitVec 28)
  /-- STC, row 94 (R485). -/
  | stc (c : Cond) (m : CopMem)
  /-- LDC, row 95 (R484). -/
  | ldc (c : Cond) (m : CopMem)
  /-- CDP, row 96 (R480). -/
  | cdp (c : Cond) (o : CopData)
  /-- MCR, row 97 (R481). -/
  | mcr (c : Cond) (o : CopReg)
  /-- MRC, row 98 (R482). -/
  | mrc (c : Cond) (o : CopReg)
  /-- SWI, row 99 (R440). -/
  | swi (c : Cond) (imm : BitVec 24)
  /-- LSL, row 100 (R524). -/
  | tLslImm (n : BitVec 5) (rs : LowReg) (rd : LowReg)
  /-- LSR, row 101 (R525). -/
  | tLsrImm (n : BitVec 5) (rs : LowReg) (rd : LowReg)
  /-- ASR, row 102 (R526). -/
  | tAsrImm (n : BitVec 5) (rs : LowReg) (rd : LowReg)
  /-- ADD, row 103 (R527). -/
  | tAddReg (rn : LowReg) (rs : LowReg) (rd : LowReg)
  /-- SUB, row 104 (R528). -/
  | tSubReg (rn : LowReg) (rs : LowReg) (rd : LowReg)
  /-- ADD, row 105 (R529). -/
  | tAddImm3 (n : BitVec 3) (rs : LowReg) (rd : LowReg)
  /-- SUB, row 106 (R530). -/
  | tSubImm3 (n : BitVec 3) (rs : LowReg) (rd : LowReg)
  /-- MOV, row 107 (R531). -/
  | tMovImm (rd : LowReg) (n : BitVec 8)
  /-- CMP, row 108 (R532). -/
  | tCmpImm (rd : LowReg) (n : BitVec 8)
  /-- ADD, row 109 (R533). -/
  | tAddImm (rd : LowReg) (n : BitVec 8)
  /-- SUB, row 110 (R534). -/
  | tSubImm (rd : LowReg) (n : BitVec 8)
  /-- AND, row 111 (R540). -/
  | tAnd (rs : LowReg) (rd : LowReg)
  /-- EOR, row 112 (R541). -/
  | tEor (rs : LowReg) (rd : LowReg)
  /-- LSL, row 113 (R542). -/
  | tLsl (rs : LowReg) (rd : LowReg)
  /-- LSR, row 114 (R543). -/
  | tLsr (rs : LowReg) (rd : LowReg)
  /-- ASR, row 115 (R544). -/
  | tAsr (rs : LowReg) (rd : LowReg)
  /-- ADC, row 116 (R545). -/
  | tAdc (rs : LowReg) (rd : LowReg)
  /-- SBC, row 117 (R546). -/
  | tSbc (rs : LowReg) (rd : LowReg)
  /-- ROR, row 118 (R547). -/
  | tRor (rs : LowReg) (rd : LowReg)
  /-- TST, row 119 (R548). -/
  | tTst (rs : LowReg) (rd : LowReg)
  /-- NEG, row 120 (R549). -/
  | tNeg (rs : LowReg) (rd : LowReg)
  /-- CMP, row 121 (R550). -/
  | tCmp (rs : LowReg) (rd : LowReg)
  /-- CMN, row 122 (R551). -/
  | tCmn (rs : LowReg) (rd : LowReg)
  /-- ORR, row 123 (R552). -/
  | tOrr (rs : LowReg) (rd : LowReg)
  /-- MUL, row 124 (R556). -/
  | tMul (rs : LowReg) (rd : LowReg)
  /-- BIC, row 125 (R557). -/
  | tBic (rs : LowReg) (rd : LowReg)
  /-- MVN, row 126 (R558). -/
  | tMvn (rs : LowReg) (rd : LowReg)
  /-- ADD, row 127 (R560). -/
  | tAddHi (h1 : Bool) (h2 : Bool) (rs : LowReg) (rd : LowReg)
  /-- CMP, row 128 (R561). -/
  | tCmpHi (h1 : Bool) (h2 : Bool) (rs : LowReg) (rd : LowReg)
  /-- MOV, row 129 (R562). -/
  | tMovHi (h1 : Bool) (h2 : Bool) (rs : LowReg) (rd : LowReg)
  /-- BX, row 130 (R612). -/
  | tBx (h1 : Bool) (h2 : Bool) (rs : LowReg) (sbz : BitVec 3)
  /-- LDR, row 131 (R594). -/
  | tLdrPc (rd : LowReg) (n : BitVec 8)
  /-- STR, row 132 (R595). -/
  | tStrReg (ro : LowReg) (rb : LowReg) (rd : LowReg)
  /-- STRH, row 133 (R599). -/
  | tStrhReg (ro : LowReg) (rb : LowReg) (rd : LowReg)
  /-- STRB, row 134 (R596). -/
  | tStrbReg (ro : LowReg) (rb : LowReg) (rd : LowReg)
  /-- LDSB, row 135 (R601). -/
  | tLdsbReg (ro : LowReg) (rb : LowReg) (rd : LowReg)
  /-- LDR, row 136 (R597). -/
  | tLdrReg (ro : LowReg) (rb : LowReg) (rd : LowReg)
  /-- LDRH, row 137 (R600). -/
  | tLdrhReg (ro : LowReg) (rb : LowReg) (rd : LowReg)
  /-- LDRB, row 138 (R598). -/
  | tLdrbReg (ro : LowReg) (rb : LowReg) (rd : LowReg)
  /-- LDSH, row 139 (R602). -/
  | tLdshReg (ro : LowReg) (rb : LowReg) (rd : LowReg)
  /-- STR, row 140 (R603). -/
  | tStrImm (n : BitVec 5) (rb : LowReg) (rd : LowReg)
  /-- LDR, row 141 (R604). -/
  | tLdrImm (n : BitVec 5) (rb : LowReg) (rd : LowReg)
  /-- STRB, row 142 (R605). -/
  | tStrbImm (n : BitVec 5) (rb : LowReg) (rd : LowReg)
  /-- LDRB, row 143 (R606). -/
  | tLdrbImm (n : BitVec 5) (rb : LowReg) (rd : LowReg)
  /-- STRH, row 144 (R607). -/
  | tStrhImm (n : BitVec 5) (rb : LowReg) (rd : LowReg)
  /-- LDRH, row 145 (R608). -/
  | tLdrhImm (n : BitVec 5) (rb : LowReg) (rd : LowReg)
  /-- STR, row 146 (R609). -/
  | tStrSp (rd : LowReg) (n : BitVec 8)
  /-- LDR, row 147 (R610). -/
  | tLdrSp (rd : LowReg) (n : BitVec 8)
  /-- ADD, row 148 (R570). -/
  | tAddPc (rd : LowReg) (n : BitVec 8)
  /-- ADD, row 149 (R571). -/
  | tAddSp (rd : LowReg) (n : BitVec 8)
  /-- ADD, row 150 (R572). -/
  | tIncSp (n : BitVec 7)
  /-- SUB, row 151 (R573). -/
  | tDecSp (n : BitVec 7)
  /-- PUSH, row 152 (R620). -/
  | tPush (lr : Bool) (list : BitVec 8)
  /-- POP, row 153 (R621). -/
  | tPop (pc : Bool) (list : BitVec 8)
  /-- UNDEFINED, row 154 (R220 (c)). -/
  | tUnd1011 (body : BitVec 12)
  /-- STMIA, row 155 (R629). -/
  | tStmia (rb : LowReg) (list : BitVec 8)
  /-- LDMIA, row 156 (R630). -/
  | tLdmia (rb : LowReg) (list : BitVec 8)
  /-- UNDEFINED, row 157 (R220 (a)). -/
  | tUndDE (n : BitVec 8)
  /-- SWI, row 158 (R636). -/
  | tSwi (n : BitVec 8)
  /-- B<cond>, row 159 (R634). -/
  | tBCond (c : Cond) (n : BitVec 8)
  /-- B, row 160 (R638). -/
  | tB (n : BitVec 11)
  /-- UNDEFINED, row 161 (R220 (b)). -/
  | tUnd11101 (n : BitVec 11)
  /-- BL, row 162 (R640). -/
  | tBl1 (n : BitVec 11)
  /-- BL, row 163 (R641). -/
  | tBl2 (n : BitVec 11)
deriving DecidableEq, Repr

end Sys2Proof
end

