-- ==== Sys2Proof/Machine/Restrict.lean ====
section
/-!
DEFINITION. The restrictions of the instruction rules that are seen in the instruction alone: which fields of which row
make it UNPREDICTABLE (30_encoding.md R197, R222 and the corner cases of each rule), and which field values a row does not
have because another row owns them (30_encoding.md R196, R221).
-/

namespace Sys2Proof.Machine

/-- The first defect of a list of checks. -/
def firstDefect : List (Bool × Defect) → Option Defect
  | [] => none
  | (bad, d) :: rest => if bad then some d else firstDefect rest

/-- Is this register field R15? -/
def isPc (r : Reg) : Bool := r == 15#4

/-- Is register `r` in the list? -/
def inList {n : Nat} (list : BitVec n) (r : Reg) : Bool := list.getLsbD r.toNat

/-- Is a register below `r` in the list? -/
def belowInList {n : Nat} (list : BitVec n) (r : Reg) : Bool := list.toNat % 2 ^ r.toNat != 0

/-- Operand 2 shifted by a register: no register may be R15 (40_arm_data_processing.md R251). -/
def shiftRegDefect (ra rb : Reg) (o : ShiftReg) : List (Bool × Defect) :=
  [(isPc ra || isPc rb || isPc o.rs || isPc o.rm, .pcOperand)]

/-- MUL and MLA (41_arm_multiply.md R300, R301). -/
def mulDefect (rd rn rs rm : Reg) : List (Bool × Defect) :=
  [(isPc rd || isPc rn || isPc rs || isPc rm, .pcOperand), (rd == rm, .regOverlap)]

/-- The long multiplies (R300, R301). -/
def mulLongDefect (rdHi rdLo rs rm : Reg) : List (Bool × Defect) :=
  [(isPc rdHi || isPc rdLo || isPc rs || isPc rm, .pcOperand),
   (rdHi == rdLo || rdHi == rm || rdLo == rm, .regOverlap)]

/-- SWP and SWPB (44_arm_load_store_multiple_swap.md R420). -/
def swapDefect (rn rd sbz rm : Reg) : List (Bool × Defect) :=
  [(sbz != 0#4, .sbz), (isPc rn || isPc rd || isPc rm, .pcOperand), (rn == rm || rn == rd, .regOverlap)]

/-- Addressing mode 3 (43_arm_load_store.md R341, R342; Rd = 15 by R360 to R363). -/
def mode3Defect (m : Mode3) : List (Bool × Defect) :=
  let wb := !m.p || m.w
  [(!m.p && m.w, .postWriteback), (isPc m.rd, .pcOperand), (!m.i && m.hi != 0#4, .sbz), (!m.i && isPc m.lo, .pcOperand),
   (wb && isPc m.rn, .writebackPc), (wb && m.rn == m.rd, .writebackDest),
   (wb && !m.i && m.lo == m.rn, .writebackIndex)]

/-- Write-back of addressing mode 2 (R342). -/
def writebackDefect (wb : Bool) (rn rd : Reg) : List (Bool × Defect) :=
  [(wb && isPc rn, .writebackPc), (wb && rn == rd, .writebackDest)]

/-- Register offset of addressing mode 2 (R340, R342). -/
def indexDefect (wb : Bool) (rn : Reg) (o : ShiftImm) : List (Bool × Defect) :=
  [(isPc o.rm, .pcOperand), (wb && o.rm == rn, .writebackIndex)]

/-- Does the plain word or byte transfer write its base back (R342)? -/
def Mode2.wb (a : Mode2) : Bool := a.idx != .offset

/-- Rd = 15 where the transfer forbids it: every byte form (R347, R349, R351, R353) and LDRT (R350). -/
def destDefect (forbidden : Bool) (rd : Reg) : List (Bool × Defect) := [(forbidden && isPc rd, .pcOperand)]

/-- Base and list of a block transfer (44_arm_load_store_multiple_swap.md R391). -/
def blockDefect {n : Nat} (rn : Reg) (list : BitVec n) (pcToo : Bool) : List (Bool × Defect) :=
  [(isPc rn, .pcOperand), (!pcToo && list == 0#n, .emptyList)]

/-- The register numbers of Thumb format 5 (30_encoding.md R204). -/
def hiReg (h : Bool) (r : LowReg) : Reg := bit h ++ r

/-- A low register as a 4-bit register number. -/
def lowReg (r : LowReg) : Reg := 0#1 ++ r

/-- The checks of each row, in order. A row with none is legal in all its field values. -/
def Instr.checks : Instr → List (Bool × Defect)
  | .mul _ _ rd sbz rs rm => (sbz != 0#4, .sbz) :: mulDefect rd rs rs rm
  | .mla _ _ rd rn rs rm => mulDefect rd rn rs rm
  | .umull _ _ rdHi rdLo rs rm => mulLongDefect rdHi rdLo rs rm
  | .umlal _ _ rdHi rdLo rs rm => mulLongDefect rdHi rdLo rs rm
  | .smull _ _ rdHi rdLo rs rm => mulLongDefect rdHi rdLo rs rm
  | .smlal _ _ rdHi rdLo rs rm => mulLongDefect rdHi rdLo rs rm
  | .undArith _ _ => []
  | .swp _ rn rd sbz rm => swapDefect rn rd sbz rm
  | .swpb _ rn rd sbz rm => swapDefect rn rd sbz rm
  | .undLsA _ _ => []
  | .strh _ m => mode3Defect m
  | .ldrh _ m => mode3Defect m
  | .ldrsb _ m => mode3Defect m
  | .ldrsh _ m => mode3Defect m
  | .undLsB _ _ => []
  | .mrs _ _ sbo rd sbzHi sbzLo => [(sbo != 15#4, .sbo), (sbzHi != 0#4 || sbzLo != 0#4, .sbz), (isPc rd, .pcOperand)]
  | .msrReg _ _ _ sbo sbz rm => [(sbo != 15#4, .sbo), (sbz != 0#4, .sbz), (isPc rm, .pcOperand)]
  | .bx _ sbo _ => [(sbo != 0xFFF#12, .sbo)]
  | .undCtlReg _ _ => []
  | .andShiftImm _ _ _ _ _ => []
  | .andShiftReg _ _ rn rd o => shiftRegDefect rn rd o
  | .eorShiftImm _ _ _ _ _ => []
  | .eorShiftReg _ _ rn rd o => shiftRegDefect rn rd o
  | .subShiftImm _ _ _ _ _ => []
  | .subShiftReg _ _ rn rd o => shiftRegDefect rn rd o
  | .rsbShiftImm _ _ _ _ _ => []
  | .rsbShiftReg _ _ rn rd o => shiftRegDefect rn rd o
  | .addShiftImm _ _ _ _ _ => []
  | .addShiftReg _ _ rn rd o => shiftRegDefect rn rd o
  | .adcShiftImm _ _ _ _ _ => []
  | .adcShiftReg _ _ rn rd o => shiftRegDefect rn rd o
  | .sbcShiftImm _ _ _ _ _ => []
  | .sbcShiftReg _ _ rn rd o => shiftRegDefect rn rd o
  | .rscShiftImm _ _ _ _ _ => []
  | .rscShiftReg _ _ rn rd o => shiftRegDefect rn rd o
  | .tstShiftImm _ _ sbz _ => (sbz != 0#4, .sbz) :: []
  | .tstShiftReg _ rn sbz o => (sbz != 0#4, .sbz) :: shiftRegDefect rn rn o
  | .teqShiftImm _ _ sbz _ => (sbz != 0#4, .sbz) :: []
  | .teqShiftReg _ rn sbz o => (sbz != 0#4, .sbz) :: shiftRegDefect rn rn o
  | .cmpShiftImm _ _ sbz _ => (sbz != 0#4, .sbz) :: []
  | .cmpShiftReg _ rn sbz o => (sbz != 0#4, .sbz) :: shiftRegDefect rn rn o
  | .cmnShiftImm _ _ sbz _ => (sbz != 0#4, .sbz) :: []
  | .cmnShiftReg _ rn sbz o => (sbz != 0#4, .sbz) :: shiftRegDefect rn rn o
  | .orrShiftImm _ _ _ _ _ => []
  | .orrShiftReg _ _ rn rd o => shiftRegDefect rn rd o
  | .movShiftImm _ _ sbz _ _ => (sbz != 0#4, .sbz) :: []
  | .movShiftReg _ _ sbz rd o => (sbz != 0#4, .sbz) :: shiftRegDefect rd rd o
  | .bicShiftImm _ _ _ _ _ => []
  | .bicShiftReg _ _ rn rd o => shiftRegDefect rn rd o
  | .mvnShiftImm _ _ sbz _ _ => (sbz != 0#4, .sbz) :: []
  | .mvnShiftReg _ _ sbz rd o => (sbz != 0#4, .sbz) :: shiftRegDefect rd rd o
  | .msrImm _ _ _ sbo _ => [(sbo != 15#4, .sbo)]
  | .undCtlImm _ _ => []
  | .andImm _ _ _ _ _ => []
  | .eorImm _ _ _ _ _ => []
  | .subImm _ _ _ _ _ => []
  | .rsbImm _ _ _ _ _ => []
  | .addImm _ _ _ _ _ => []
  | .adcImm _ _ _ _ _ => []
  | .sbcImm _ _ _ _ _ => []
  | .rscImm _ _ _ _ _ => []
  | .tstImm _ _ sbz _ => (sbz != 0#4, .sbz) :: []
  | .teqImm _ _ sbz _ => (sbz != 0#4, .sbz) :: []
  | .cmpImm _ _ sbz _ => (sbz != 0#4, .sbz) :: []
  | .cmnImm _ _ sbz _ => (sbz != 0#4, .sbz) :: []
  | .orrImm _ _ _ _ _ => []
  | .movImm _ _ sbz _ _ => (sbz != 0#4, .sbz) :: []
  | .bicImm _ _ _ _ _ => []
  | .mvnImm _ _ sbz _ _ => (sbz != 0#4, .sbz) :: []
  | .strtImm _ _ rn rd _ => destDefect false rd ++ writebackDefect true rn rd
  | .ldrtImm _ _ rn rd _ => destDefect true rd ++ writebackDefect true rn rd
  | .strbtImm _ _ rn rd _ => destDefect true rd ++ writebackDefect true rn rd
  | .ldrbtImm _ _ rn rd _ => destDefect true rd ++ writebackDefect true rn rd
  | .strImm _ a _ => destDefect false a.rd ++ writebackDefect (Mode2.wb a) a.rn a.rd
  | .ldrImm _ a _ => destDefect false a.rd ++ writebackDefect (Mode2.wb a) a.rn a.rd
  | .strbImm _ a _ => destDefect true a.rd ++ writebackDefect (Mode2.wb a) a.rn a.rd
  | .ldrbImm _ a _ => destDefect true a.rd ++ writebackDefect (Mode2.wb a) a.rn a.rd
  | .undSpace _ _ => []
  | .strtReg _ _ rn rd o => destDefect false rd ++ writebackDefect true rn rd ++ indexDefect true rn o
  | .ldrtReg _ _ rn rd o => destDefect true rd ++ writebackDefect true rn rd ++ indexDefect true rn o
  | .strbtReg _ _ rn rd o => destDefect true rd ++ writebackDefect true rn rd ++ indexDefect true rn o
  | .ldrbtReg _ _ rn rd o => destDefect true rd ++ writebackDefect true rn rd ++ indexDefect true rn o
  | .strReg _ a o => destDefect false a.rd ++ writebackDefect (Mode2.wb a) a.rn a.rd ++ indexDefect (Mode2.wb a) a.rn o
  | .ldrReg _ a o => destDefect false a.rd ++ writebackDefect (Mode2.wb a) a.rn a.rd ++ indexDefect (Mode2.wb a) a.rn o
  | .strbReg _ a o => destDefect true a.rd ++ writebackDefect (Mode2.wb a) a.rn a.rd ++ indexDefect (Mode2.wb a) a.rn o
  | .ldrbReg _ a o => destDefect true a.rd ++ writebackDefect (Mode2.wb a) a.rn a.rd ++ indexDefect (Mode2.wb a) a.rn o
  | .stm1 _ _ _ w rn list => blockDefect rn list false ++ [(w && inList list rn && belowInList list rn, .baseInList)]
  | .ldm1 _ _ _ w rn list => blockDefect rn list false ++ [(w && inList list rn, .baseInList)]
  | .stm2 _ _ _ w rn list => blockDefect rn list false ++ [(w, .userListWriteback)]
  | .ldm2 _ _ _ w rn list => blockDefect rn list false ++ [(w, .userListWriteback)]
  | .ldm3 _ _ _ w rn list => blockDefect rn list true ++ [(w && inList list rn, .baseInList)]
  | .b _ _ => []
  | .bl _ _ => []
  | .undCop _ _ => []
  | .stc _ m => [(m.w && isPc m.rn, .writebackPc)]
  | .ldc _ m => [(m.w && isPc m.rn, .writebackPc)]
  | .cdp _ _ => []
  | .mcr _ o => [(isPc o.rd, .pcOperand)]
  | .mrc _ _ => []
  | .swi _ _ => []
  | .tLslImm _ _ _ => []
  | .tLsrImm _ _ _ => []
  | .tAsrImm _ _ _ => []
  | .tAddReg _ _ _ => []
  | .tSubReg _ _ _ => []
  | .tAddImm3 _ _ _ => []
  | .tSubImm3 _ _ _ => []
  | .tMovImm _ _ => []
  | .tCmpImm _ _ => []
  | .tAddImm _ _ => []
  | .tSubImm _ _ => []
  | .tAnd _ _ => []
  | .tEor _ _ => []
  | .tLsl _ _ => []
  | .tLsr _ _ => []
  | .tAsr _ _ => []
  | .tAdc _ _ => []
  | .tSbc _ _ => []
  | .tRor _ _ => []
  | .tTst _ _ => []
  | .tNeg _ _ => []
  | .tCmp _ _ => []
  | .tCmn _ _ => []
  | .tOrr _ _ => []
  | .tMul rs rd => [(rs == rd, .regOverlap)]
  | .tBic _ _ => []
  | .tMvn _ _ => []
  | .tAddHi h1 h2 rs rd => [(!h1 && !h2, .bothLow), (isPc (hiReg h1 rd) && isPc (hiReg h2 rs), .pcOperand)]
  | .tCmpHi h1 h2 _ rd => [(!h1 && !h2, .bothLow), (isPc (hiReg h1 rd), .pcOperand)]
  | .tMovHi h1 h2 _ _ => [(!h1 && !h2, .bothLow)]
  | .tBx h1 _ _ sbz => [(h1 || sbz != 0#3, .sbz)]
  | .tLdrPc _ _ => []
  | .tStrReg _ _ _ => []
  | .tStrhReg _ _ _ => []
  | .tStrbReg _ _ _ => []
  | .tLdsbReg _ _ _ => []
  | .tLdrReg _ _ _ => []
  | .tLdrhReg _ _ _ => []
  | .tLdrbReg _ _ _ => []
  | .tLdshReg _ _ _ => []
  | .tStrImm _ _ _ => []
  | .tLdrImm _ _ _ => []
  | .tStrbImm _ _ _ => []
  | .tLdrbImm _ _ _ => []
  | .tStrhImm _ _ _ => []
  | .tLdrhImm _ _ _ => []
  | .tStrSp _ _ => []
  | .tLdrSp _ _ => []
  | .tAddPc _ _ => []
  | .tAddSp _ _ => []
  | .tIncSp _ => []
  | .tDecSp _ => []
  | .tPush lr list => [(!lr && list == 0#8, .emptyList)]
  | .tPop pc list => [(!pc && list == 0#8, .emptyList)]
  | .tUnd1011 _ => []
  | .tStmia _ list => [(list == 0#8, .emptyList)]
  | .tLdmia _ list => [(list == 0#8, .emptyList)]
  | .tUndDE _ => []
  | .tSwi _ => []
  | .tBCond _ _ => []
  | .tB _ => []
  | .tUnd11101 _ => []
  | .tBl1 _ => []
  | .tBl2 _ => []

/-- The condition of an ARM instruction; the Thumb rows have none (30_encoding.md R172). -/
def Instr.cond : Instr → Option Cond
  | .mul c _ _ _ _ _ => some c
  | .mla c _ _ _ _ _ => some c
  | .umull c _ _ _ _ _ => some c
  | .umlal c _ _ _ _ _ => some c
  | .smull c _ _ _ _ _ => some c
  | .smlal c _ _ _ _ _ => some c
  | .undArith c _ => some c
  | .swp c _ _ _ _ => some c
  | .swpb c _ _ _ _ => some c
  | .undLsA c _ => some c
  | .strh c _ => some c
  | .ldrh c _ => some c
  | .ldrsb c _ => some c
  | .ldrsh c _ => some c
  | .undLsB c _ => some c
  | .mrs c _ _ _ _ _ => some c
  | .msrReg c _ _ _ _ _ => some c
  | .bx c _ _ => some c
  | .undCtlReg c _ => some c
  | .andShiftImm c _ _ _ _ => some c
  | .andShiftReg c _ _ _ _ => some c
  | .eorShiftImm c _ _ _ _ => some c
  | .eorShiftReg c _ _ _ _ => some c
  | .subShiftImm c _ _ _ _ => some c
  | .subShiftReg c _ _ _ _ => some c
  | .rsbShiftImm c _ _ _ _ => some c
  | .rsbShiftReg c _ _ _ _ => some c
  | .addShiftImm c _ _ _ _ => some c
  | .addShiftReg c _ _ _ _ => some c
  | .adcShiftImm c _ _ _ _ => some c
  | .adcShiftReg c _ _ _ _ => some c
  | .sbcShiftImm c _ _ _ _ => some c
  | .sbcShiftReg c _ _ _ _ => some c
  | .rscShiftImm c _ _ _ _ => some c
  | .rscShiftReg c _ _ _ _ => some c
  | .tstShiftImm c _ _ _ => some c
  | .tstShiftReg c _ _ _ => some c
  | .teqShiftImm c _ _ _ => some c
  | .teqShiftReg c _ _ _ => some c
  | .cmpShiftImm c _ _ _ => some c
  | .cmpShiftReg c _ _ _ => some c
  | .cmnShiftImm c _ _ _ => some c
  | .cmnShiftReg c _ _ _ => some c
  | .orrShiftImm c _ _ _ _ => some c
  | .orrShiftReg c _ _ _ _ => some c
  | .movShiftImm c _ _ _ _ => some c
  | .movShiftReg c _ _ _ _ => some c
  | .bicShiftImm c _ _ _ _ => some c
  | .bicShiftReg c _ _ _ _ => some c
  | .mvnShiftImm c _ _ _ _ => some c
  | .mvnShiftReg c _ _ _ _ => some c
  | .msrImm c _ _ _ _ => some c
  | .undCtlImm c _ => some c
  | .andImm c _ _ _ _ => some c
  | .eorImm c _ _ _ _ => some c
  | .subImm c _ _ _ _ => some c
  | .rsbImm c _ _ _ _ => some c
  | .addImm c _ _ _ _ => some c
  | .adcImm c _ _ _ _ => some c
  | .sbcImm c _ _ _ _ => some c
  | .rscImm c _ _ _ _ => some c
  | .tstImm c _ _ _ => some c
  | .teqImm c _ _ _ => some c
  | .cmpImm c _ _ _ => some c
  | .cmnImm c _ _ _ => some c
  | .orrImm c _ _ _ _ => some c
  | .movImm c _ _ _ _ => some c
  | .bicImm c _ _ _ _ => some c
  | .mvnImm c _ _ _ _ => some c
  | .strtImm c _ _ _ _ => some c
  | .ldrtImm c _ _ _ _ => some c
  | .strbtImm c _ _ _ _ => some c
  | .ldrbtImm c _ _ _ _ => some c
  | .strImm c _ _ => some c
  | .ldrImm c _ _ => some c
  | .strbImm c _ _ => some c
  | .ldrbImm c _ _ => some c
  | .undSpace c _ => some c
  | .strtReg c _ _ _ _ => some c
  | .ldrtReg c _ _ _ _ => some c
  | .strbtReg c _ _ _ _ => some c
  | .ldrbtReg c _ _ _ _ => some c
  | .strReg c _ _ => some c
  | .ldrReg c _ _ => some c
  | .strbReg c _ _ => some c
  | .ldrbReg c _ _ => some c
  | .stm1 c _ _ _ _ _ => some c
  | .ldm1 c _ _ _ _ _ => some c
  | .stm2 c _ _ _ _ _ => some c
  | .ldm2 c _ _ _ _ _ => some c
  | .ldm3 c _ _ _ _ _ => some c
  | .b c _ => some c
  | .bl c _ => some c
  | .undCop c _ => some c
  | .stc c _ => some c
  | .ldc c _ => some c
  | .cdp c _ => some c
  | .mcr c _ => some c
  | .mrc c _ => some c
  | .swi c _ => some c
  | .tLslImm _ _ _ => none
  | .tLsrImm _ _ _ => none
  | .tAsrImm _ _ _ => none
  | .tAddReg _ _ _ => none
  | .tSubReg _ _ _ => none
  | .tAddImm3 _ _ _ => none
  | .tSubImm3 _ _ _ => none
  | .tMovImm _ _ => none
  | .tCmpImm _ _ => none
  | .tAddImm _ _ => none
  | .tSubImm _ _ => none
  | .tAnd _ _ => none
  | .tEor _ _ => none
  | .tLsl _ _ => none
  | .tLsr _ _ => none
  | .tAsr _ _ => none
  | .tAdc _ _ => none
  | .tSbc _ _ => none
  | .tRor _ _ => none
  | .tTst _ _ => none
  | .tNeg _ _ => none
  | .tCmp _ _ => none
  | .tCmn _ _ => none
  | .tOrr _ _ => none
  | .tMul _ _ => none
  | .tBic _ _ => none
  | .tMvn _ _ => none
  | .tAddHi _ _ _ _ => none
  | .tCmpHi _ _ _ _ => none
  | .tMovHi _ _ _ _ => none
  | .tBx _ _ _ _ => none
  | .tLdrPc _ _ => none
  | .tStrReg _ _ _ => none
  | .tStrhReg _ _ _ => none
  | .tStrbReg _ _ _ => none
  | .tLdsbReg _ _ _ => none
  | .tLdrReg _ _ _ => none
  | .tLdrhReg _ _ _ => none
  | .tLdrbReg _ _ _ => none
  | .tLdshReg _ _ _ => none
  | .tStrImm _ _ _ => none
  | .tLdrImm _ _ _ => none
  | .tStrbImm _ _ _ => none
  | .tLdrbImm _ _ _ => none
  | .tStrhImm _ _ _ => none
  | .tLdrhImm _ _ _ => none
  | .tStrSp _ _ => none
  | .tLdrSp _ _ => none
  | .tAddPc _ _ => none
  | .tAddSp _ _ => none
  | .tIncSp _ => none
  | .tDecSp _ => none
  | .tPush _ _ => none
  | .tPop _ _ => none
  | .tUnd1011 _ => none
  | .tStmia _ _ => none
  | .tLdmia _ _ => none
  | .tUndDE _ => none
  | .tSwi _ => none
  | .tBCond _ _ => none
  | .tB _ => none
  | .tUnd11101 _ => none
  | .tBl1 _ => none
  | .tBl2 _ => none

/-- The defect of an instruction, if it has one (93_implementation_defined.md U1, U2). -/
def Instr.defect (i : Instr) : Option Defect :=
  if Instr.cond i = some .nv then some .condNever else firstDefect (Instr.checks i)

/-- The field values that a row really has: those of its match and mask that no row above it in the decode order takes
(30_encoding.md R190 to R194, R196, R220, R221). -/
def Instr.inRow : Instr → Bool
  | .mul _ _ _ _ _ _ => true
  | .mla _ _ _ _ _ _ => true
  | .umull _ _ _ _ _ _ => true
  | .umlal _ _ _ _ _ _ => true
  | .smull _ _ _ _ _ _ => true
  | .smlal _ _ _ _ _ _ => true
  | .undArith _ body =>
      body.extractLsb' 22 6 == 0b000001#6 && body.extractLsb' 4 4 == 0b1001#4
  | .swp _ _ _ _ _ => true
  | .swpb _ _ _ _ _ => true
  | .undLsA _ body =>
      body.extractLsb' 24 4 == 0b0001#4 && body.extractLsb' 4 4 == 0b1001#4 &&
      !(!body.getLsbD 23 && body.extractLsb' 20 2 == 0b00#2)
  | .strh _ _ => true
  | .ldrh _ _ => true
  | .ldrsb _ _ => true
  | .ldrsh _ _ => true
  | .undLsB _ body =>
      body.extractLsb' 25 3 == 0b000#3 && !body.getLsbD 20 && body.extractLsb' 6 2 == 0b11#2 && body.getLsbD 4
  | .mrs _ _ _ _ _ _ => true
  | .msrReg _ _ _ _ _ _ => true
  | .bx _ _ _ => true
  | .undCtlReg _ body =>
      body.extractLsb' 23 5 == 0b00010#5 && !body.getLsbD 20 && !(body.getLsbD 7 && body.getLsbD 4) &&
      body.extractLsb' 4 4 != 0b0000#4 && !(body.extractLsb' 4 4 == 0b0001#4 && body.extractLsb' 21 2 == 0b01#2)
  | .andShiftImm _ _ _ _ _ => true
  | .andShiftReg _ _ _ _ _ => true
  | .eorShiftImm _ _ _ _ _ => true
  | .eorShiftReg _ _ _ _ _ => true
  | .subShiftImm _ _ _ _ _ => true
  | .subShiftReg _ _ _ _ _ => true
  | .rsbShiftImm _ _ _ _ _ => true
  | .rsbShiftReg _ _ _ _ _ => true
  | .addShiftImm _ _ _ _ _ => true
  | .addShiftReg _ _ _ _ _ => true
  | .adcShiftImm _ _ _ _ _ => true
  | .adcShiftReg _ _ _ _ _ => true
  | .sbcShiftImm _ _ _ _ _ => true
  | .sbcShiftReg _ _ _ _ _ => true
  | .rscShiftImm _ _ _ _ _ => true
  | .rscShiftReg _ _ _ _ _ => true
  | .tstShiftImm _ _ _ _ => true
  | .tstShiftReg _ _ _ _ => true
  | .teqShiftImm _ _ _ _ => true
  | .teqShiftReg _ _ _ _ => true
  | .cmpShiftImm _ _ _ _ => true
  | .cmpShiftReg _ _ _ _ => true
  | .cmnShiftImm _ _ _ _ => true
  | .cmnShiftReg _ _ _ _ => true
  | .orrShiftImm _ _ _ _ _ => true
  | .orrShiftReg _ _ _ _ _ => true
  | .movShiftImm _ _ _ _ _ => true
  | .movShiftReg _ _ _ _ _ => true
  | .bicShiftImm _ _ _ _ _ => true
  | .bicShiftReg _ _ _ _ _ => true
  | .mvnShiftImm _ _ _ _ _ => true
  | .mvnShiftReg _ _ _ _ _ => true
  | .msrImm _ _ _ _ _ => true
  | .undCtlImm _ body =>
      body.extractLsb' 23 5 == 0b00110#5 && body.extractLsb' 20 2 == 0b00#2
  | .andImm _ _ _ _ _ => true
  | .eorImm _ _ _ _ _ => true
  | .subImm _ _ _ _ _ => true
  | .rsbImm _ _ _ _ _ => true
  | .addImm _ _ _ _ _ => true
  | .adcImm _ _ _ _ _ => true
  | .sbcImm _ _ _ _ _ => true
  | .rscImm _ _ _ _ _ => true
  | .tstImm _ _ _ _ => true
  | .teqImm _ _ _ _ => true
  | .cmpImm _ _ _ _ => true
  | .cmnImm _ _ _ _ => true
  | .orrImm _ _ _ _ _ => true
  | .movImm _ _ _ _ _ => true
  | .bicImm _ _ _ _ _ => true
  | .mvnImm _ _ _ _ _ => true
  | .strtImm _ _ _ _ _ => true
  | .ldrtImm _ _ _ _ _ => true
  | .strbtImm _ _ _ _ _ => true
  | .ldrbtImm _ _ _ _ _ => true
  | .strImm _ _ _ => true
  | .ldrImm _ _ _ => true
  | .strbImm _ _ _ => true
  | .ldrbImm _ _ _ => true
  | .undSpace _ body => body.extractLsb' 25 3 == 0b011#3 && body.getLsbD 4
  | .strtReg _ _ _ _ _ => true
  | .ldrtReg _ _ _ _ _ => true
  | .strbtReg _ _ _ _ _ => true
  | .ldrbtReg _ _ _ _ _ => true
  | .strReg _ _ _ => true
  | .ldrReg _ _ _ => true
  | .strbReg _ _ _ => true
  | .ldrbReg _ _ _ => true
  | .stm1 _ _ _ _ _ _ => true
  | .ldm1 _ _ _ _ _ _ => true
  | .stm2 _ _ _ _ _ _ => true
  | .ldm2 _ _ _ _ _ _ => true
  | .ldm3 _ _ _ _ _ _ => true
  | .b _ _ => true
  | .bl _ _ => true
  | .undCop _ body => body.extractLsb' 23 5 == 0b11000#5 && !body.getLsbD 21
  | .stc _ m => m.p || m.u || m.w
  | .ldc _ m => m.p || m.u || m.w
  | .cdp _ _ => true
  | .mcr _ _ => true
  | .mrc _ _ => true
  | .swi _ _ => true
  | .tLslImm _ _ _ => true
  | .tLsrImm _ _ _ => true
  | .tAsrImm _ _ _ => true
  | .tAddReg _ _ _ => true
  | .tSubReg _ _ _ => true
  | .tAddImm3 _ _ _ => true
  | .tSubImm3 _ _ _ => true
  | .tMovImm _ _ => true
  | .tCmpImm _ _ => true
  | .tAddImm _ _ => true
  | .tSubImm _ _ => true
  | .tAnd _ _ => true
  | .tEor _ _ => true
  | .tLsl _ _ => true
  | .tLsr _ _ => true
  | .tAsr _ _ => true
  | .tAdc _ _ => true
  | .tSbc _ _ => true
  | .tRor _ _ => true
  | .tTst _ _ => true
  | .tNeg _ _ => true
  | .tCmp _ _ => true
  | .tCmn _ _ => true
  | .tOrr _ _ => true
  | .tMul _ _ => true
  | .tBic _ _ => true
  | .tMvn _ _ => true
  | .tAddHi _ _ _ _ => true
  | .tCmpHi _ _ _ _ => true
  | .tMovHi _ _ _ _ => true
  | .tBx _ _ _ _ => true
  | .tLdrPc _ _ => true
  | .tStrReg _ _ _ => true
  | .tStrhReg _ _ _ => true
  | .tStrbReg _ _ _ => true
  | .tLdsbReg _ _ _ => true
  | .tLdrReg _ _ _ => true
  | .tLdrhReg _ _ _ => true
  | .tLdrbReg _ _ _ => true
  | .tLdshReg _ _ _ => true
  | .tStrImm _ _ _ => true
  | .tLdrImm _ _ _ => true
  | .tStrbImm _ _ _ => true
  | .tLdrbImm _ _ _ => true
  | .tStrhImm _ _ _ => true
  | .tLdrhImm _ _ _ => true
  | .tStrSp _ _ => true
  | .tLdrSp _ _ => true
  | .tAddPc _ _ => true
  | .tAddSp _ _ => true
  | .tIncSp _ => true
  | .tDecSp _ => true
  | .tPush _ _ => true
  | .tPop _ _ => true
  | .tUnd1011 body =>
      body.extractLsb' 8 4 != 0b0000#4 && body.extractLsb' 9 2 != 0b10#2
  | .tStmia _ _ => true
  | .tLdmia _ _ => true
  | .tUndDE _ => true
  | .tSwi _ => true
  | .tBCond c _ => c != .al && c != .nv
  | .tB _ => true
  | .tUnd11101 _ => true
  | .tBl1 _ => true
  | .tBl2 _ => true

end Sys2Proof.Machine
end

