-- ==== Sys2Proof/WellFormed.lean ====
section
/-!
DEFINITION. Well-formed instructions: the field values that an encoding has (30_encoding.md R196, R221) and that no rule
calls UNPREDICTABLE in the instruction alone (R197, R222). The checks themselves stand in Machine/Restrict.lean.
-/

namespace Sys2Proof

/-- The instruction is one that an encoding gives: its fields are in its row and in no row above it. -/
def Instr.encodable (i : Instr) : Bool := Machine.Instr.inRow i

/-- The instruction is encodable and has no UNPREDICTABLE field or combination of fields. -/
def Instr.wf (i : Instr) : Bool := i.encodable && (Machine.Instr.defect i).isNone

end Sys2Proof
end

