-- ==== Sys2Proof/Decode.lean ====
section
/-!
DEFINITION. The decoder of the two instruction sets, total on any bytes (30_encoding.md R196 and R221 line by line), the
byte-level decoder, which rejects by name, and the encoder, written from the same format tables (R175 to R189, R200 to R218).
-/

namespace Sys2Proof

/-- Why bytes are no instruction. The decode tables of R196 and R221 cover every word, so only length can be wrong. -/
inductive DecodeError where
  /-- Fewer bytes than the instruction set's length (30_encoding.md R170). -/
  | tooShort
deriving DecidableEq, Repr

/-- The condition field's code (30_encoding.md R172). -/
def Cond.bits : Cond → BitVec 4
  | .eq => 0#4
  | .ne => 1#4
  | .cs => 2#4
  | .cc => 3#4
  | .mi => 4#4
  | .pl => 5#4
  | .vs => 6#4
  | .vc => 7#4
  | .hi => 8#4
  | .ls => 9#4
  | .ge => 10#4
  | .lt => 11#4
  | .gt => 12#4
  | .le => 13#4
  | .al => 14#4
  | .nv => 15#4

/-- The condition of a code (30_encoding.md R172). -/
def Cond.ofBits (b : BitVec 4) : Cond :=
  match b.toNat with
  | 0 => .eq
  | 1 => .ne
  | 2 => .cs
  | 3 => .cc
  | 4 => .mi
  | 5 => .pl
  | 6 => .vs
  | 7 => .vc
  | 8 => .hi
  | 9 => .ls
  | 10 => .ge
  | 11 => .lt
  | 12 => .gt
  | 13 => .le
  | 14 => .al
  | _ => .nv

/-- The shift type's code (30_encoding.md R176). -/
def ShiftType.bits : ShiftType → BitVec 2
  | .lsl => 0b00#2
  | .lsr => 0b01#2
  | .asr => 0b10#2
  | .ror => 0b11#2

/-- The shift type of a code. -/
def ShiftType.ofBits (b : BitVec 2) : ShiftType :=
  match b.toNat with
  | 0 => .lsl
  | 1 => .lsr
  | 2 => .asr
  | _ => .ror

/-- Bit P of an index form (43_arm_load_store.md R342). -/
def Index.p : Index → BitVec 1
  | .post => 0#1
  | _ => 1#1

/-- Bit W of an index form (43_arm_load_store.md R342). -/
def Index.w : Index → BitVec 1
  | .pre => 1#1
  | _ => 0#1

/-- The index form of P and W; P = 0 with W = 1 is the user-access row and does not reach here. -/
def Index.ofBits (p w : Bool) : Index := if p then (if w then .pre else .offset) else .post

/-- `len` bits of an instruction word from bit `lo` up. -/
def fld (w : Word) (lo len : Nat) : BitVec len := w.extractLsb' lo len

/-- `len` bits of a Thumb halfword from bit `lo` up. -/
def tfld (h : Half) (lo len : Nat) : BitVec len := h.extractLsb' lo len

/-- Operand 2, register shifted by an immediate (R176). -/
def shiftImmOf (w : Word) : ShiftImm := ⟨fld w 7 5, ShiftType.ofBits (fld w 5 2), fld w 0 4⟩

/-- Operand 2, register shifted by a register (R176). -/
def shiftRegOf (w : Word) : ShiftReg := ⟨fld w 8 4, ShiftType.ofBits (fld w 5 2), fld w 0 4⟩

/-- Operand 2, rotated immediate (R176). -/
def rotImmOf (w : Word) : RotImm := ⟨fld w 8 4, fld w 0 8⟩

/-- The fields of a halfword or signed transfer (R181). -/
def mode3Of (w : Word) : Mode3 :=
  ⟨w.getLsbD 24, w.getLsbD 23, w.getLsbD 22, w.getLsbD 21, fld w 16 4, fld w 12 4, fld w 8 4, fld w 0 4⟩

/-- The fields of a word or byte transfer (R183). -/
def mode2Of (w : Word) : Mode2 :=
  ⟨Index.ofBits (w.getLsbD 24) (w.getLsbD 21), w.getLsbD 23, fld w 16 4, fld w 12 4⟩

/-- The fields of LDC and STC (R186). -/
def copMemOf (w : Word) : CopMem :=
  ⟨w.getLsbD 24, w.getLsbD 23, w.getLsbD 22, w.getLsbD 21, fld w 16 4, fld w 12 4, fld w 8 4, fld w 0 8⟩

/-- The fields of CDP (R187). -/
def copDataOf (w : Word) : CopData := ⟨fld w 20 4, fld w 16 4, fld w 12 4, fld w 8 4, fld w 5 3, fld w 0 4⟩

/-- The fields of MCR and MRC (R188). -/
def copRegOf (w : Word) : CopReg := ⟨fld w 21 3, fld w 16 4, fld w 12 4, fld w 8 4, fld w 5 3, fld w 0 4⟩

/-- Data processing, ShiftImm (R175): the operation by bits 24:21. -/
def decodeDpShiftImm (c : Cond) (w : Word) : Instr :=
  let s := w.getLsbD 20
  let rn := fld w 16 4
  let rd := fld w 12 4
  let o := shiftImmOf w
  match (fld w 21 4).toNat with
  | 0 => .andShiftImm c s rn rd o
  | 1 => .eorShiftImm c s rn rd o
  | 2 => .subShiftImm c s rn rd o
  | 3 => .rsbShiftImm c s rn rd o
  | 4 => .addShiftImm c s rn rd o
  | 5 => .adcShiftImm c s rn rd o
  | 6 => .sbcShiftImm c s rn rd o
  | 7 => .rscShiftImm c s rn rd o
  | 8 => .tstShiftImm c rn rd o
  | 9 => .teqShiftImm c rn rd o
  | 10 => .cmpShiftImm c rn rd o
  | 11 => .cmnShiftImm c rn rd o
  | 12 => .orrShiftImm c s rn rd o
  | 13 => .movShiftImm c s rn rd o
  | 14 => .bicShiftImm c s rn rd o
  | _ => .mvnShiftImm c s rn rd o

/-- Data processing, ShiftReg (R175): the operation by bits 24:21. -/
def decodeDpShiftReg (c : Cond) (w : Word) : Instr :=
  let s := w.getLsbD 20
  let rn := fld w 16 4
  let rd := fld w 12 4
  let o := shiftRegOf w
  match (fld w 21 4).toNat with
  | 0 => .andShiftReg c s rn rd o
  | 1 => .eorShiftReg c s rn rd o
  | 2 => .subShiftReg c s rn rd o
  | 3 => .rsbShiftReg c s rn rd o
  | 4 => .addShiftReg c s rn rd o
  | 5 => .adcShiftReg c s rn rd o
  | 6 => .sbcShiftReg c s rn rd o
  | 7 => .rscShiftReg c s rn rd o
  | 8 => .tstShiftReg c rn rd o
  | 9 => .teqShiftReg c rn rd o
  | 10 => .cmpShiftReg c rn rd o
  | 11 => .cmnShiftReg c rn rd o
  | 12 => .orrShiftReg c s rn rd o
  | 13 => .movShiftReg c s rn rd o
  | 14 => .bicShiftReg c s rn rd o
  | _ => .mvnShiftReg c s rn rd o

/-- Data processing, Imm (R175): the operation by bits 24:21. -/
def decodeDpImm (c : Cond) (w : Word) : Instr :=
  let s := w.getLsbD 20
  let rn := fld w 16 4
  let rd := fld w 12 4
  let o := rotImmOf w
  match (fld w 21 4).toNat with
  | 0 => .andImm c s rn rd o
  | 1 => .eorImm c s rn rd o
  | 2 => .subImm c s rn rd o
  | 3 => .rsbImm c s rn rd o
  | 4 => .addImm c s rn rd o
  | 5 => .adcImm c s rn rd o
  | 6 => .sbcImm c s rn rd o
  | 7 => .rscImm c s rn rd o
  | 8 => .tstImm c rn rd o
  | 9 => .teqImm c rn rd o
  | 10 => .cmpImm c rn rd o
  | 11 => .cmnImm c rn rd o
  | 12 => .orrImm c s rn rd o
  | 13 => .movImm c s rn rd o
  | 14 => .bicImm c s rn rd o
  | _ => .mvnImm c s rn rd o

/-- Bits 7 and 4 both 1, bits 6:5 = 00, bit 24 = 0: the multiplies and the arithmetic extension space (R177, R178, R191). -/
def decodeMul (c : Cond) (w : Word) : Instr :=
  let s := w.getLsbD 20
  let a := fld w 16 4
  let b := fld w 12 4
  let rs := fld w 8 4
  let rm := fld w 0 4
  if w.getLsbD 23 then
    if w.getLsbD 22 then
      if w.getLsbD 21 then .smlal c s a b rs rm else .smull c s a b rs rm
    else if w.getLsbD 21 then .umlal c s a b rs rm
    else .umull c s a b rs rm
  else if w.getLsbD 22 then .undArith c (fld w 0 28)
  else if w.getLsbD 21 then .mla c s a b rs rm
  else .mul c s a b rs rm

/-- Bits 7 and 4 both 1, bits 6:5 = 00, bit 24 = 1: swap and the load/store extension space (R179, R193 a). -/
def decodeSwap (c : Cond) (w : Word) : Instr :=
  if w.getLsbD 23 || w.getLsbD 21 || w.getLsbD 20 then .undLsA c (fld w 0 28)
  else if w.getLsbD 22 then .swpb c (fld w 16 4) (fld w 12 4) (fld w 8 4) (fld w 0 4)
  else .swp c (fld w 16 4) (fld w 12 4) (fld w 8 4) (fld w 0 4)

/-- Bits 7 and 4 both 1, bits 6:5 not 00: halfword and signed transfer (R181, R193 b). -/
def decodeMode3 (c : Cond) (w : Word) : Instr :=
  if w.getLsbD 20 then
    if w.getLsbD 6 then
      if w.getLsbD 5 then .ldrsh c (mode3Of w) else .ldrsb c (mode3Of w)
    else .ldrh c (mode3Of w)
  else if w.getLsbD 6 then .undLsB c (fld w 0 28)
  else .strh c (mode3Of w)

/-- The control extension space with bit 25 = 0 (R180, R182, R192). -/
def decodeControl (c : Cond) (w : Word) : Instr :=
  if fld w 4 4 = 0b0000#4 then
    if w.getLsbD 21 then .msrReg c (w.getLsbD 22) (fld w 16 4) (fld w 12 4) (fld w 8 4) (fld w 0 4)
    else .mrs c (w.getLsbD 22) (fld w 16 4) (fld w 12 4) (fld w 8 4) (fld w 0 4)
  else if fld w 4 4 = 0b0001#4 ∧ fld w 21 2 = 0b01#2 then .bx c (fld w 8 12) (fld w 0 4)
  else .undCtlReg c (fld w 0 28)

/-- The word and byte transfers (R183); bits 24 and 21 single out the user-access rows. -/
def decodeSingle (c : Cond) (w : Word) : Instr :=
  let u := w.getLsbD 23
  let rn := fld w 16 4
  let rd := fld w 12 4
  let imm := fld w 0 12
  let o := shiftImmOf w
  if !w.getLsbD 24 && w.getLsbD 21 then
    match w.getLsbD 25, w.getLsbD 22, w.getLsbD 20 with
    | false, false, false => .strtImm c u rn rd imm
    | false, false, true => .ldrtImm c u rn rd imm
    | false, true, false => .strbtImm c u rn rd imm
    | false, true, true => .ldrbtImm c u rn rd imm
    | true, false, false => .strtReg c u rn rd o
    | true, false, true => .ldrtReg c u rn rd o
    | true, true, false => .strbtReg c u rn rd o
    | true, true, true => .ldrbtReg c u rn rd o
  else
    match w.getLsbD 25, w.getLsbD 22, w.getLsbD 20 with
    | false, false, false => .strImm c (mode2Of w) imm
    | false, false, true => .ldrImm c (mode2Of w) imm
    | false, true, false => .strbImm c (mode2Of w) imm
    | false, true, true => .ldrbImm c (mode2Of w) imm
    | true, false, false => .strReg c (mode2Of w) o
    | true, false, true => .ldrReg c (mode2Of w) o
    | true, true, false => .strbReg c (mode2Of w) o
    | true, true, true => .ldrbReg c (mode2Of w) o

/-- The block transfers (R184); S and bit 15 single out the user-bank and the CPSR-restoring rows (R398 to R400). -/
def decodeBlock (c : Cond) (w : Word) : Instr :=
  let p := w.getLsbD 24
  let u := w.getLsbD 23
  let wb := w.getLsbD 21
  let rn := fld w 16 4
  if w.getLsbD 22 then
    if w.getLsbD 20 then
      if w.getLsbD 15 then .ldm3 c p u wb rn (fld w 0 15) else .ldm2 c p u wb rn (fld w 0 15)
    else .stm2 c p u wb rn (fld w 0 16)
  else if w.getLsbD 20 then .ldm1 c p u wb rn (fld w 0 16)
  else .stm1 c p u wb rn (fld w 0 16)

/-- Group 000 (30_encoding.md R196). -/
def decodeGroup0 (c : Cond) (w : Word) : Instr :=
  if w.getLsbD 7 && w.getLsbD 4 then
    if fld w 5 2 = 0b00#2 then (if w.getLsbD 24 then decodeSwap c w else decodeMul c w)
    else decodeMode3 c w
  else if fld w 23 2 = 0b10#2 ∧ w.getLsbD 20 = false then decodeControl c w
  else if w.getLsbD 4 then decodeDpShiftReg c w
  else decodeDpShiftImm c w

/-- Group 001 (R196). -/
def decodeGroup1 (c : Cond) (w : Word) : Instr :=
  if fld w 23 2 = 0b10#2 ∧ w.getLsbD 20 = false then
    if w.getLsbD 21 then .msrImm c (w.getLsbD 22) (fld w 16 4) (fld w 12 4) (rotImmOf w) else .undCtlImm c (fld w 0 28)
  else decodeDpImm c w

/-- Group 110 (R196). -/
def decodeGroup6 (c : Cond) (w : Word) : Instr :=
  if fld w 23 2 = 0b00#2 ∧ w.getLsbD 21 = false then .undCop c (fld w 0 28)
  else if w.getLsbD 20 then .ldc c (copMemOf w)
  else .stc c (copMemOf w)

/-- Group 111 (R196). -/
def decodeGroup7 (c : Cond) (w : Word) : Instr :=
  if w.getLsbD 24 then .swi c (fld w 0 24)
  else if w.getLsbD 4 then (if w.getLsbD 20 then .mrc c (copRegOf w) else .mcr c (copRegOf w))
  else .cdp c (copDataOf w)

/-- The ARM decoder (30_encoding.md R196): every 32-bit word is an instruction. -/
def decodeArm (w : Word) : Instr :=
  let c := Cond.ofBits (fld w 28 4)
  match (fld w 25 3).toNat with
  | 0 => decodeGroup0 c w
  | 1 => decodeGroup1 c w
  | 2 => decodeSingle c w
  | 3 => if w.getLsbD 4 then .undSpace c (fld w 0 28) else decodeSingle c w
  | 4 => decodeBlock c w
  | 5 => if w.getLsbD 24 then .bl c (fld w 0 24) else .b c (fld w 0 24)
  | 6 => decodeGroup6 c w
  | _ => decodeGroup7 c w

/-- Thumb format 4 (R203). -/
def decodeThumbAlu (h : Half) : Instr :=
  let rs := tfld h 3 3
  let rd := tfld h 0 3
  match (tfld h 6 4).toNat with
  | 0 => .tAnd rs rd
  | 1 => .tEor rs rd
  | 2 => .tLsl rs rd
  | 3 => .tLsr rs rd
  | 4 => .tAsr rs rd
  | 5 => .tAdc rs rd
  | 6 => .tSbc rs rd
  | 7 => .tRor rs rd
  | 8 => .tTst rs rd
  | 9 => .tNeg rs rd
  | 10 => .tCmp rs rd
  | 11 => .tCmn rs rd
  | 12 => .tOrr rs rd
  | 13 => .tMul rs rd
  | 14 => .tBic rs rd
  | _ => .tMvn rs rd

/-- Thumb format 5 (R204). -/
def decodeThumbHi (h : Half) : Instr :=
  let h1 := h.getLsbD 7
  let h2 := h.getLsbD 6
  match (tfld h 8 2).toNat with
  | 0 => .tAddHi h1 h2 (tfld h 3 3) (tfld h 0 3)
  | 1 => .tCmpHi h1 h2 (tfld h 3 3) (tfld h 0 3)
  | 2 => .tMovHi h1 h2 (tfld h 3 3) (tfld h 0 3)
  | _ => .tBx h1 h2 (tfld h 3 3) (tfld h 0 3)

/-- Thumb formats 7 and 8 (R206, R207): bits 11:9 name the transfer. -/
def decodeThumbRegOffset (h : Half) : Instr :=
  let ro := tfld h 6 3
  let rb := tfld h 3 3
  let rd := tfld h 0 3
  match (tfld h 9 3).toNat with
  | 0 => .tStrReg ro rb rd
  | 1 => .tStrhReg ro rb rd
  | 2 => .tStrbReg ro rb rd
  | 3 => .tLdsbReg ro rb rd
  | 4 => .tLdrReg ro rb rd
  | 5 => .tLdrhReg ro rb rd
  | 6 => .tLdrbReg ro rb rd
  | _ => .tLdshReg ro rb rd

/-- Bits 15:12 = 1011: formats 13 and 14 and the UNDEFINED rest (R212, R213, R220 c). -/
def decodeThumbMisc (h : Half) : Instr :=
  if tfld h 8 4 = 0b0000#4 then (if h.getLsbD 7 then .tDecSp (tfld h 0 7) else .tIncSp (tfld h 0 7))
  else if tfld h 9 2 = 0b10#2 then
    if h.getLsbD 11 then .tPop (h.getLsbD 8) (tfld h 0 8) else .tPush (h.getLsbD 8) (tfld h 0 8)
  else .tUnd1011 (tfld h 0 12)

/-- Bits 15:12 = 1101: formats 16 and 17 and the UNDEFINED 0xDExx (R215, R216, R220 a). -/
def decodeThumbCond (h : Half) : Instr :=
  if tfld h 8 4 = 0b1111#4 then .tSwi (tfld h 0 8)
  else if tfld h 8 4 = 0b1110#4 then .tUndDE (tfld h 0 8)
  else .tBCond (Cond.ofBits (tfld h 8 4)) (tfld h 0 8)

/-- The Thumb decoder (30_encoding.md R221): every halfword is an instruction. Bits 15:11 choose the format. -/
def decodeThumb (h : Half) : Instr :=
  let n5 := tfld h 6 5
  let r3 := tfld h 3 3
  let r0 := tfld h 0 3
  let r8 := tfld h 8 3
  let n8 := tfld h 0 8
  match (tfld h 11 5).toNat with
  | 0 => .tLslImm n5 r3 r0
  | 1 => .tLsrImm n5 r3 r0
  | 2 => .tAsrImm n5 r3 r0
  | 3 =>
    match h.getLsbD 10, h.getLsbD 9 with
    | false, false => .tAddReg (tfld h 6 3) r3 r0
    | false, true => .tSubReg (tfld h 6 3) r3 r0
    | true, false => .tAddImm3 (tfld h 6 3) r3 r0
    | true, true => .tSubImm3 (tfld h 6 3) r3 r0
  | 4 => .tMovImm r8 n8
  | 5 => .tCmpImm r8 n8
  | 6 => .tAddImm r8 n8
  | 7 => .tSubImm r8 n8
  | 8 => if h.getLsbD 10 then decodeThumbHi h else decodeThumbAlu h
  | 9 => .tLdrPc r8 n8
  | 10 => decodeThumbRegOffset h
  | 11 => decodeThumbRegOffset h
  | 12 => .tStrImm n5 r3 r0
  | 13 => .tLdrImm n5 r3 r0
  | 14 => .tStrbImm n5 r3 r0
  | 15 => .tLdrbImm n5 r3 r0
  | 16 => .tStrhImm n5 r3 r0
  | 17 => .tLdrhImm n5 r3 r0
  | 18 => .tStrSp r8 n8
  | 19 => .tLdrSp r8 n8
  | 20 => .tAddPc r8 n8
  | 21 => .tAddSp r8 n8
  | 22 => decodeThumbMisc h
  | 23 => decodeThumbMisc h
  | 24 => .tStmia r8 n8
  | 25 => .tLdmia r8 n8
  | 26 => decodeThumbCond h
  | 27 => decodeThumbCond h
  | 28 => .tB (tfld h 0 11)
  | 29 => .tUnd11101 (tfld h 0 11)
  | 30 => .tBl1 (tfld h 0 11)
  | _ => .tBl2 (tfld h 0 11)

/-- A halfword from two bytes in address order (20_memory.md R124). -/
def halfOf (bigend : Bool) (b0 b1 : Byte) : Half := if bigend then b0 ++ b1 else b1 ++ b0

/-- A word from four bytes in address order (20_memory.md R125). -/
def wordOf (bigend : Bool) (b0 b1 b2 b3 : Byte) : Word := if bigend then b0 ++ b1 ++ b2 ++ b3 else b3 ++ b2 ++ b1 ++ b0

/-- The instruction at the head of a list of bytes in address order, and the bytes after it (R112, R170). -/
def decodeBytes (thumb bigend : Bool) (bs : List Byte) : Except DecodeError (Instr × List Byte) :=
  match thumb, bs with
  | true, b0 :: b1 :: rest => .ok (decodeThumb (halfOf bigend b0 b1), rest)
  | false, b0 :: b1 :: b2 :: b3 :: rest => .ok (decodeArm (wordOf bigend b0 b1 b2 b3), rest)
  | _, _ => .error .tooShort

/-- The bits of an encoded instruction: an ARM word or a Thumb halfword (R170). -/
inductive Code where
  | arm (w : Word)
  | thumb (h : Half)
deriving DecidableEq, Repr

/-- The instruction of a code. -/
def decodeCode : Code → Instr
  | .arm w => decodeArm w
  | .thumb h => decodeThumb h

/-- The encoder: each format written from its table, high bits first (30_encoding.md R175 to R189, R200 to R218). -/
def encode : Instr → Code
  | .mul c s rd sbz rs rm => .arm (c.bits ++ 0b0000000#7 ++ bit s ++ rd ++ sbz ++ rs ++ 0b1001#4 ++ rm)
  | .mla c s rd rn rs rm => .arm (c.bits ++ 0b0000001#7 ++ bit s ++ rd ++ rn ++ rs ++ 0b1001#4 ++ rm)
  | .umull c s rdHi rdLo rs rm => .arm (c.bits ++ 0b0000100#7 ++ bit s ++ rdHi ++ rdLo ++ rs ++ 0b1001#4 ++ rm)
  | .umlal c s rdHi rdLo rs rm => .arm (c.bits ++ 0b0000101#7 ++ bit s ++ rdHi ++ rdLo ++ rs ++ 0b1001#4 ++ rm)
  | .smull c s rdHi rdLo rs rm => .arm (c.bits ++ 0b0000110#7 ++ bit s ++ rdHi ++ rdLo ++ rs ++ 0b1001#4 ++ rm)
  | .smlal c s rdHi rdLo rs rm => .arm (c.bits ++ 0b0000111#7 ++ bit s ++ rdHi ++ rdLo ++ rs ++ 0b1001#4 ++ rm)
  | .undArith c body => .arm (c.bits ++ body)
  | .swp c rn rd sbz rm => .arm (c.bits ++ 0b00010000#8 ++ rn ++ rd ++ sbz ++ 0b1001#4 ++ rm)
  | .swpb c rn rd sbz rm => .arm (c.bits ++ 0b00010100#8 ++ rn ++ rd ++ sbz ++ 0b1001#4 ++ rm)
  | .undLsA c body => .arm (c.bits ++ body)
  | .strh c m => .arm (c.bits ++ 0b000#3 ++ bit m.p ++ bit m.u ++ bit m.i ++ bit m.w ++ 0b0#1 ++ m.rn ++ m.rd ++ m.hi ++ 0b1011#4 ++ m.lo)
  | .ldrh c m => .arm (c.bits ++ 0b000#3 ++ bit m.p ++ bit m.u ++ bit m.i ++ bit m.w ++ 0b1#1 ++ m.rn ++ m.rd ++ m.hi ++ 0b1011#4 ++ m.lo)
  | .ldrsb c m => .arm (c.bits ++ 0b000#3 ++ bit m.p ++ bit m.u ++ bit m.i ++ bit m.w ++ 0b1#1 ++ m.rn ++ m.rd ++ m.hi ++ 0b1101#4 ++ m.lo)
  | .ldrsh c m => .arm (c.bits ++ 0b000#3 ++ bit m.p ++ bit m.u ++ bit m.i ++ bit m.w ++ 0b1#1 ++ m.rn ++ m.rd ++ m.hi ++ 0b1111#4 ++ m.lo)
  | .undLsB c body => .arm (c.bits ++ body)
  | .mrs c r sbo rd sbzHi sbzLo => .arm (c.bits ++ 0b00010#5 ++ bit r ++ 0b00#2 ++ sbo ++ rd ++ sbzHi ++ 0b0000#4 ++ sbzLo)
  | .msrReg c r mask sbo sbz rm => .arm (c.bits ++ 0b00010#5 ++ bit r ++ 0b10#2 ++ mask ++ sbo ++ sbz ++ 0b0000#4 ++ rm)
  | .bx c sbo rm => .arm (c.bits ++ 0b00010010#8 ++ sbo ++ 0b0001#4 ++ rm)
  | .undCtlReg c body => .arm (c.bits ++ body)
  | .andShiftImm c s rn rd o => .arm (c.bits ++ 0b0000000#7 ++ bit s ++ rn ++ rd ++ o.amount ++ o.ty.bits ++ 0b0#1 ++ o.rm)
  | .andShiftReg c s rn rd o => .arm (c.bits ++ 0b0000000#7 ++ bit s ++ rn ++ rd ++ o.rs ++ 0b0#1 ++ o.ty.bits ++ 0b1#1 ++ o.rm)
  | .eorShiftImm c s rn rd o => .arm (c.bits ++ 0b0000001#7 ++ bit s ++ rn ++ rd ++ o.amount ++ o.ty.bits ++ 0b0#1 ++ o.rm)
  | .eorShiftReg c s rn rd o => .arm (c.bits ++ 0b0000001#7 ++ bit s ++ rn ++ rd ++ o.rs ++ 0b0#1 ++ o.ty.bits ++ 0b1#1 ++ o.rm)
  | .subShiftImm c s rn rd o => .arm (c.bits ++ 0b0000010#7 ++ bit s ++ rn ++ rd ++ o.amount ++ o.ty.bits ++ 0b0#1 ++ o.rm)
  | .subShiftReg c s rn rd o => .arm (c.bits ++ 0b0000010#7 ++ bit s ++ rn ++ rd ++ o.rs ++ 0b0#1 ++ o.ty.bits ++ 0b1#1 ++ o.rm)
  | .rsbShiftImm c s rn rd o => .arm (c.bits ++ 0b0000011#7 ++ bit s ++ rn ++ rd ++ o.amount ++ o.ty.bits ++ 0b0#1 ++ o.rm)
  | .rsbShiftReg c s rn rd o => .arm (c.bits ++ 0b0000011#7 ++ bit s ++ rn ++ rd ++ o.rs ++ 0b0#1 ++ o.ty.bits ++ 0b1#1 ++ o.rm)
  | .addShiftImm c s rn rd o => .arm (c.bits ++ 0b0000100#7 ++ bit s ++ rn ++ rd ++ o.amount ++ o.ty.bits ++ 0b0#1 ++ o.rm)
  | .addShiftReg c s rn rd o => .arm (c.bits ++ 0b0000100#7 ++ bit s ++ rn ++ rd ++ o.rs ++ 0b0#1 ++ o.ty.bits ++ 0b1#1 ++ o.rm)
  | .adcShiftImm c s rn rd o => .arm (c.bits ++ 0b0000101#7 ++ bit s ++ rn ++ rd ++ o.amount ++ o.ty.bits ++ 0b0#1 ++ o.rm)
  | .adcShiftReg c s rn rd o => .arm (c.bits ++ 0b0000101#7 ++ bit s ++ rn ++ rd ++ o.rs ++ 0b0#1 ++ o.ty.bits ++ 0b1#1 ++ o.rm)
  | .sbcShiftImm c s rn rd o => .arm (c.bits ++ 0b0000110#7 ++ bit s ++ rn ++ rd ++ o.amount ++ o.ty.bits ++ 0b0#1 ++ o.rm)
  | .sbcShiftReg c s rn rd o => .arm (c.bits ++ 0b0000110#7 ++ bit s ++ rn ++ rd ++ o.rs ++ 0b0#1 ++ o.ty.bits ++ 0b1#1 ++ o.rm)
  | .rscShiftImm c s rn rd o => .arm (c.bits ++ 0b0000111#7 ++ bit s ++ rn ++ rd ++ o.amount ++ o.ty.bits ++ 0b0#1 ++ o.rm)
  | .rscShiftReg c s rn rd o => .arm (c.bits ++ 0b0000111#7 ++ bit s ++ rn ++ rd ++ o.rs ++ 0b0#1 ++ o.ty.bits ++ 0b1#1 ++ o.rm)
  | .tstShiftImm c rn sbz o => .arm (c.bits ++ 0b00010001#8 ++ rn ++ sbz ++ o.amount ++ o.ty.bits ++ 0b0#1 ++ o.rm)
  | .tstShiftReg c rn sbz o => .arm (c.bits ++ 0b00010001#8 ++ rn ++ sbz ++ o.rs ++ 0b0#1 ++ o.ty.bits ++ 0b1#1 ++ o.rm)
  | .teqShiftImm c rn sbz o => .arm (c.bits ++ 0b00010011#8 ++ rn ++ sbz ++ o.amount ++ o.ty.bits ++ 0b0#1 ++ o.rm)
  | .teqShiftReg c rn sbz o => .arm (c.bits ++ 0b00010011#8 ++ rn ++ sbz ++ o.rs ++ 0b0#1 ++ o.ty.bits ++ 0b1#1 ++ o.rm)
  | .cmpShiftImm c rn sbz o => .arm (c.bits ++ 0b00010101#8 ++ rn ++ sbz ++ o.amount ++ o.ty.bits ++ 0b0#1 ++ o.rm)
  | .cmpShiftReg c rn sbz o => .arm (c.bits ++ 0b00010101#8 ++ rn ++ sbz ++ o.rs ++ 0b0#1 ++ o.ty.bits ++ 0b1#1 ++ o.rm)
  | .cmnShiftImm c rn sbz o => .arm (c.bits ++ 0b00010111#8 ++ rn ++ sbz ++ o.amount ++ o.ty.bits ++ 0b0#1 ++ o.rm)
  | .cmnShiftReg c rn sbz o => .arm (c.bits ++ 0b00010111#8 ++ rn ++ sbz ++ o.rs ++ 0b0#1 ++ o.ty.bits ++ 0b1#1 ++ o.rm)
  | .orrShiftImm c s rn rd o => .arm (c.bits ++ 0b0001100#7 ++ bit s ++ rn ++ rd ++ o.amount ++ o.ty.bits ++ 0b0#1 ++ o.rm)
  | .orrShiftReg c s rn rd o => .arm (c.bits ++ 0b0001100#7 ++ bit s ++ rn ++ rd ++ o.rs ++ 0b0#1 ++ o.ty.bits ++ 0b1#1 ++ o.rm)
  | .movShiftImm c s sbz rd o => .arm (c.bits ++ 0b0001101#7 ++ bit s ++ sbz ++ rd ++ o.amount ++ o.ty.bits ++ 0b0#1 ++ o.rm)
  | .movShiftReg c s sbz rd o => .arm (c.bits ++ 0b0001101#7 ++ bit s ++ sbz ++ rd ++ o.rs ++ 0b0#1 ++ o.ty.bits ++ 0b1#1 ++ o.rm)
  | .bicShiftImm c s rn rd o => .arm (c.bits ++ 0b0001110#7 ++ bit s ++ rn ++ rd ++ o.amount ++ o.ty.bits ++ 0b0#1 ++ o.rm)
  | .bicShiftReg c s rn rd o => .arm (c.bits ++ 0b0001110#7 ++ bit s ++ rn ++ rd ++ o.rs ++ 0b0#1 ++ o.ty.bits ++ 0b1#1 ++ o.rm)
  | .mvnShiftImm c s sbz rd o => .arm (c.bits ++ 0b0001111#7 ++ bit s ++ sbz ++ rd ++ o.amount ++ o.ty.bits ++ 0b0#1 ++ o.rm)
  | .mvnShiftReg c s sbz rd o => .arm (c.bits ++ 0b0001111#7 ++ bit s ++ sbz ++ rd ++ o.rs ++ 0b0#1 ++ o.ty.bits ++ 0b1#1 ++ o.rm)
  | .msrImm c r mask sbo o => .arm (c.bits ++ 0b00110#5 ++ bit r ++ 0b10#2 ++ mask ++ sbo ++ o.rot ++ o.imm8)
  | .undCtlImm c body => .arm (c.bits ++ body)
  | .andImm c s rn rd o => .arm (c.bits ++ 0b0010000#7 ++ bit s ++ rn ++ rd ++ o.rot ++ o.imm8)
  | .eorImm c s rn rd o => .arm (c.bits ++ 0b0010001#7 ++ bit s ++ rn ++ rd ++ o.rot ++ o.imm8)
  | .subImm c s rn rd o => .arm (c.bits ++ 0b0010010#7 ++ bit s ++ rn ++ rd ++ o.rot ++ o.imm8)
  | .rsbImm c s rn rd o => .arm (c.bits ++ 0b0010011#7 ++ bit s ++ rn ++ rd ++ o.rot ++ o.imm8)
  | .addImm c s rn rd o => .arm (c.bits ++ 0b0010100#7 ++ bit s ++ rn ++ rd ++ o.rot ++ o.imm8)
  | .adcImm c s rn rd o => .arm (c.bits ++ 0b0010101#7 ++ bit s ++ rn ++ rd ++ o.rot ++ o.imm8)
  | .sbcImm c s rn rd o => .arm (c.bits ++ 0b0010110#7 ++ bit s ++ rn ++ rd ++ o.rot ++ o.imm8)
  | .rscImm c s rn rd o => .arm (c.bits ++ 0b0010111#7 ++ bit s ++ rn ++ rd ++ o.rot ++ o.imm8)
  | .tstImm c rn sbz o => .arm (c.bits ++ 0b00110001#8 ++ rn ++ sbz ++ o.rot ++ o.imm8)
  | .teqImm c rn sbz o => .arm (c.bits ++ 0b00110011#8 ++ rn ++ sbz ++ o.rot ++ o.imm8)
  | .cmpImm c rn sbz o => .arm (c.bits ++ 0b00110101#8 ++ rn ++ sbz ++ o.rot ++ o.imm8)
  | .cmnImm c rn sbz o => .arm (c.bits ++ 0b00110111#8 ++ rn ++ sbz ++ o.rot ++ o.imm8)
  | .orrImm c s rn rd o => .arm (c.bits ++ 0b0011100#7 ++ bit s ++ rn ++ rd ++ o.rot ++ o.imm8)
  | .movImm c s sbz rd o => .arm (c.bits ++ 0b0011101#7 ++ bit s ++ sbz ++ rd ++ o.rot ++ o.imm8)
  | .bicImm c s rn rd o => .arm (c.bits ++ 0b0011110#7 ++ bit s ++ rn ++ rd ++ o.rot ++ o.imm8)
  | .mvnImm c s sbz rd o => .arm (c.bits ++ 0b0011111#7 ++ bit s ++ sbz ++ rd ++ o.rot ++ o.imm8)
  | .strtImm c u rn rd imm => .arm (c.bits ++ 0b0100#4 ++ bit u ++ 0b010#3 ++ rn ++ rd ++ imm)
  | .ldrtImm c u rn rd imm => .arm (c.bits ++ 0b0100#4 ++ bit u ++ 0b011#3 ++ rn ++ rd ++ imm)
  | .strbtImm c u rn rd imm => .arm (c.bits ++ 0b0100#4 ++ bit u ++ 0b110#3 ++ rn ++ rd ++ imm)
  | .ldrbtImm c u rn rd imm => .arm (c.bits ++ 0b0100#4 ++ bit u ++ 0b111#3 ++ rn ++ rd ++ imm)
  | .strImm c a imm => .arm (c.bits ++ 0b010#3 ++ a.idx.p ++ bit a.u ++ 0b0#1 ++ a.idx.w ++ 0b0#1 ++ a.rn ++ a.rd ++ imm)
  | .ldrImm c a imm => .arm (c.bits ++ 0b010#3 ++ a.idx.p ++ bit a.u ++ 0b0#1 ++ a.idx.w ++ 0b1#1 ++ a.rn ++ a.rd ++ imm)
  | .strbImm c a imm => .arm (c.bits ++ 0b010#3 ++ a.idx.p ++ bit a.u ++ 0b1#1 ++ a.idx.w ++ 0b0#1 ++ a.rn ++ a.rd ++ imm)
  | .ldrbImm c a imm => .arm (c.bits ++ 0b010#3 ++ a.idx.p ++ bit a.u ++ 0b1#1 ++ a.idx.w ++ 0b1#1 ++ a.rn ++ a.rd ++ imm)
  | .undSpace c body => .arm (c.bits ++ body)
  | .strtReg c u rn rd o => .arm (c.bits ++ 0b0110#4 ++ bit u ++ 0b010#3 ++ rn ++ rd ++ o.amount ++ o.ty.bits ++ 0b0#1 ++ o.rm)
  | .ldrtReg c u rn rd o => .arm (c.bits ++ 0b0110#4 ++ bit u ++ 0b011#3 ++ rn ++ rd ++ o.amount ++ o.ty.bits ++ 0b0#1 ++ o.rm)
  | .strbtReg c u rn rd o => .arm (c.bits ++ 0b0110#4 ++ bit u ++ 0b110#3 ++ rn ++ rd ++ o.amount ++ o.ty.bits ++ 0b0#1 ++ o.rm)
  | .ldrbtReg c u rn rd o => .arm (c.bits ++ 0b0110#4 ++ bit u ++ 0b111#3 ++ rn ++ rd ++ o.amount ++ o.ty.bits ++ 0b0#1 ++ o.rm)
  | .strReg c a o => .arm (c.bits ++ 0b011#3 ++ a.idx.p ++ bit a.u ++ 0b0#1 ++ a.idx.w ++ 0b0#1 ++ a.rn ++ a.rd ++ o.amount ++ o.ty.bits ++ 0b0#1 ++ o.rm)
  | .ldrReg c a o => .arm (c.bits ++ 0b011#3 ++ a.idx.p ++ bit a.u ++ 0b0#1 ++ a.idx.w ++ 0b1#1 ++ a.rn ++ a.rd ++ o.amount ++ o.ty.bits ++ 0b0#1 ++ o.rm)
  | .strbReg c a o => .arm (c.bits ++ 0b011#3 ++ a.idx.p ++ bit a.u ++ 0b1#1 ++ a.idx.w ++ 0b0#1 ++ a.rn ++ a.rd ++ o.amount ++ o.ty.bits ++ 0b0#1 ++ o.rm)
  | .ldrbReg c a o => .arm (c.bits ++ 0b011#3 ++ a.idx.p ++ bit a.u ++ 0b1#1 ++ a.idx.w ++ 0b1#1 ++ a.rn ++ a.rd ++ o.amount ++ o.ty.bits ++ 0b0#1 ++ o.rm)
  | .stm1 c p u w rn list => .arm (c.bits ++ 0b100#3 ++ bit p ++ bit u ++ 0b0#1 ++ bit w ++ 0b0#1 ++ rn ++ list)
  | .ldm1 c p u w rn list => .arm (c.bits ++ 0b100#3 ++ bit p ++ bit u ++ 0b0#1 ++ bit w ++ 0b1#1 ++ rn ++ list)
  | .stm2 c p u w rn list => .arm (c.bits ++ 0b100#3 ++ bit p ++ bit u ++ 0b1#1 ++ bit w ++ 0b0#1 ++ rn ++ list)
  | .ldm2 c p u w rn list => .arm (c.bits ++ 0b100#3 ++ bit p ++ bit u ++ 0b1#1 ++ bit w ++ 0b1#1 ++ rn ++ 0b0#1 ++ list)
  | .ldm3 c p u w rn list => .arm (c.bits ++ 0b100#3 ++ bit p ++ bit u ++ 0b1#1 ++ bit w ++ 0b1#1 ++ rn ++ 0b1#1 ++ list)
  | .b c off => .arm (c.bits ++ 0b1010#4 ++ off)
  | .bl c off => .arm (c.bits ++ 0b1011#4 ++ off)
  | .undCop c body => .arm (c.bits ++ body)
  | .stc c m => .arm (c.bits ++ 0b110#3 ++ bit m.p ++ bit m.u ++ bit m.n ++ bit m.w ++ 0b0#1 ++ m.rn ++ m.crd ++ m.cp ++ m.off)
  | .ldc c m => .arm (c.bits ++ 0b110#3 ++ bit m.p ++ bit m.u ++ bit m.n ++ bit m.w ++ 0b1#1 ++ m.rn ++ m.crd ++ m.cp ++ m.off)
  | .cdp c o => .arm (c.bits ++ 0b1110#4 ++ o.op1 ++ o.crn ++ o.crd ++ o.cp ++ o.op2 ++ 0b0#1 ++ o.crm)
  | .mcr c o => .arm (c.bits ++ 0b1110#4 ++ o.op1 ++ 0b0#1 ++ o.crn ++ o.rd ++ o.cp ++ o.op2 ++ 0b1#1 ++ o.crm)
  | .mrc c o => .arm (c.bits ++ 0b1110#4 ++ o.op1 ++ 0b1#1 ++ o.crn ++ o.rd ++ o.cp ++ o.op2 ++ 0b1#1 ++ o.crm)
  | .swi c imm => .arm (c.bits ++ 0b1111#4 ++ imm)
  | .tLslImm n rs rd => .thumb (0b00000#5 ++ n ++ rs ++ rd)
  | .tLsrImm n rs rd => .thumb (0b00001#5 ++ n ++ rs ++ rd)
  | .tAsrImm n rs rd => .thumb (0b00010#5 ++ n ++ rs ++ rd)
  | .tAddReg rn rs rd => .thumb (0b0001100#7 ++ rn ++ rs ++ rd)
  | .tSubReg rn rs rd => .thumb (0b0001101#7 ++ rn ++ rs ++ rd)
  | .tAddImm3 n rs rd => .thumb (0b0001110#7 ++ n ++ rs ++ rd)
  | .tSubImm3 n rs rd => .thumb (0b0001111#7 ++ n ++ rs ++ rd)
  | .tMovImm rd n => .thumb (0b00100#5 ++ rd ++ n)
  | .tCmpImm rd n => .thumb (0b00101#5 ++ rd ++ n)
  | .tAddImm rd n => .thumb (0b00110#5 ++ rd ++ n)
  | .tSubImm rd n => .thumb (0b00111#5 ++ rd ++ n)
  | .tAnd rs rd => .thumb (0b0100000000#10 ++ rs ++ rd)
  | .tEor rs rd => .thumb (0b0100000001#10 ++ rs ++ rd)
  | .tLsl rs rd => .thumb (0b0100000010#10 ++ rs ++ rd)
  | .tLsr rs rd => .thumb (0b0100000011#10 ++ rs ++ rd)
  | .tAsr rs rd => .thumb (0b0100000100#10 ++ rs ++ rd)
  | .tAdc rs rd => .thumb (0b0100000101#10 ++ rs ++ rd)
  | .tSbc rs rd => .thumb (0b0100000110#10 ++ rs ++ rd)
  | .tRor rs rd => .thumb (0b0100000111#10 ++ rs ++ rd)
  | .tTst rs rd => .thumb (0b0100001000#10 ++ rs ++ rd)
  | .tNeg rs rd => .thumb (0b0100001001#10 ++ rs ++ rd)
  | .tCmp rs rd => .thumb (0b0100001010#10 ++ rs ++ rd)
  | .tCmn rs rd => .thumb (0b0100001011#10 ++ rs ++ rd)
  | .tOrr rs rd => .thumb (0b0100001100#10 ++ rs ++ rd)
  | .tMul rs rd => .thumb (0b0100001101#10 ++ rs ++ rd)
  | .tBic rs rd => .thumb (0b0100001110#10 ++ rs ++ rd)
  | .tMvn rs rd => .thumb (0b0100001111#10 ++ rs ++ rd)
  | .tAddHi h1 h2 rs rd => .thumb (0b01000100#8 ++ bit h1 ++ bit h2 ++ rs ++ rd)
  | .tCmpHi h1 h2 rs rd => .thumb (0b01000101#8 ++ bit h1 ++ bit h2 ++ rs ++ rd)
  | .tMovHi h1 h2 rs rd => .thumb (0b01000110#8 ++ bit h1 ++ bit h2 ++ rs ++ rd)
  | .tBx h1 h2 rs sbz => .thumb (0b01000111#8 ++ bit h1 ++ bit h2 ++ rs ++ sbz)
  | .tLdrPc rd n => .thumb (0b01001#5 ++ rd ++ n)
  | .tStrReg ro rb rd => .thumb (0b0101000#7 ++ ro ++ rb ++ rd)
  | .tStrhReg ro rb rd => .thumb (0b0101001#7 ++ ro ++ rb ++ rd)
  | .tStrbReg ro rb rd => .thumb (0b0101010#7 ++ ro ++ rb ++ rd)
  | .tLdsbReg ro rb rd => .thumb (0b0101011#7 ++ ro ++ rb ++ rd)
  | .tLdrReg ro rb rd => .thumb (0b0101100#7 ++ ro ++ rb ++ rd)
  | .tLdrhReg ro rb rd => .thumb (0b0101101#7 ++ ro ++ rb ++ rd)
  | .tLdrbReg ro rb rd => .thumb (0b0101110#7 ++ ro ++ rb ++ rd)
  | .tLdshReg ro rb rd => .thumb (0b0101111#7 ++ ro ++ rb ++ rd)
  | .tStrImm n rb rd => .thumb (0b01100#5 ++ n ++ rb ++ rd)
  | .tLdrImm n rb rd => .thumb (0b01101#5 ++ n ++ rb ++ rd)
  | .tStrbImm n rb rd => .thumb (0b01110#5 ++ n ++ rb ++ rd)
  | .tLdrbImm n rb rd => .thumb (0b01111#5 ++ n ++ rb ++ rd)
  | .tStrhImm n rb rd => .thumb (0b10000#5 ++ n ++ rb ++ rd)
  | .tLdrhImm n rb rd => .thumb (0b10001#5 ++ n ++ rb ++ rd)
  | .tStrSp rd n => .thumb (0b10010#5 ++ rd ++ n)
  | .tLdrSp rd n => .thumb (0b10011#5 ++ rd ++ n)
  | .tAddPc rd n => .thumb (0b10100#5 ++ rd ++ n)
  | .tAddSp rd n => .thumb (0b10101#5 ++ rd ++ n)
  | .tIncSp n => .thumb (0b101100000#9 ++ n)
  | .tDecSp n => .thumb (0b101100001#9 ++ n)
  | .tPush lr list => .thumb (0b1011010#7 ++ bit lr ++ list)
  | .tPop pc list => .thumb (0b1011110#7 ++ bit pc ++ list)
  | .tUnd1011 body => .thumb (0b1011#4 ++ body)
  | .tStmia rb list => .thumb (0b11000#5 ++ rb ++ list)
  | .tLdmia rb list => .thumb (0b11001#5 ++ rb ++ list)
  | .tUndDE n => .thumb (0b11011110#8 ++ n)
  | .tSwi n => .thumb (0b11011111#8 ++ n)
  | .tBCond c n => .thumb (0b1101#4 ++ c.bits ++ n)
  | .tB n => .thumb (0b11100#5 ++ n)
  | .tUnd11101 n => .thumb (0b11101#5 ++ n)
  | .tBl1 n => .thumb (0b11110#5 ++ n)
  | .tBl2 n => .thumb (0b11111#5 ++ n)

/-- The bytes of a code in address order (R112). -/
def Code.bytes (bigend : Bool) : Code → List Byte
  | .arm w =>
    if bigend then [w.extractLsb' 24 8, w.extractLsb' 16 8, w.extractLsb' 8 8, w.extractLsb' 0 8]
    else [w.extractLsb' 0 8, w.extractLsb' 8 8, w.extractLsb' 16 8, w.extractLsb' 24 8]
  | .thumb h =>
    if bigend then [h.extractLsb' 8 8, h.extractLsb' 0 8] else [h.extractLsb' 0 8, h.extractLsb' 8 8]

/-- The instruction read from a row of spec/opcode_table.json: `w` with bit 0 the least significant bit, laid out
little-endian and given to the byte decoder. 32 bits are an ARM word, 16 bits a Thumb halfword. -/
def decodeTableWord (nbits w : Nat) : Option Instr :=
  let c : Option Code :=
    if nbits = 32 then some (.arm (BitVec.ofNat 32 w)) else if nbits = 16 then some (.thumb (BitVec.ofNat 16 w)) else none
  match c with
  | some code =>
    match decodeBytes (nbits == 16) false (Code.bytes false code) with
    | .ok (i, _) => some i
    | .error _ => none
  | none => none

end Sys2Proof
end

