-- ==== Sys2Proof/Config.lean ====
section
/-!
DEFINITION. What the model leaves free (93_implementation_defined.md, treatment "any value"): two streams of values with
no body, read at the position `State.draws`. No proof can see what they hold, so a statement holds whatever the hardware
does (log 10).
-/

namespace Sys2Proof.Config

/-- DESIGN CHOICE (log 10): the words of the "any value" rows of 93_implementation_defined.md. -/
opaque freeWord : Nat → BitVec 32

/-- DESIGN CHOICE (log 10): the bits of the "any value" rows (U3, U41) and of the race D21. -/
opaque freeBit : Nat → Bool

end Sys2Proof.Config
end

