-- ==== Sys2Proof/Machine/State.lean ====
section
/-!
DEFINITION. The whole state of the core, its EmbeddedICE macrocell, its TAP controller, and of the agents around it as far
as they decide what the core does (10_state.md, 00_scope.md R15, R16). Plain data. INVENTORY.md lists every field with its
rule and its reset value.
-/

namespace Sys2Proof.Machine

/-- Named stops of the machine itself. -/
inductive Fault where
  /-- Raised by the core's cycle: the instruction about to execute lies in one of the next three slots of an earlier store
  that wrote there, with no write of the PC in between (92_eei_decisions.md D7). Safe: hardware runs one of two words. -/
  | staleFetch
  /-- Raised by the core's cycle: execution ran sequentially past 0xFFFFFFFF (10_state.md R50, D11). Safe. -/
  | ranPastTop
  /-- Raised by the core's cycle: the instruction after LDM (2) or STM (2) names a banked register
  (70_reset_and_hazards.md R921). Safe. -/
  | userBankHazard
deriving DecidableEq, Repr

/-- Named refusals: the spec gives the behaviour no effect. -/
inductive Refusal where
  /-- Raised by a dispatch arm whose instruction has no meaning yet. Safe. -/
  | notModelled (mnemonic : String)
  /-- Raised by an instruction whose condition passed and whose encoding, operands or mode are UNPREDICTABLE
  (93_implementation_defined.md U1, U2, U10, U11). Safe. -/
  | unpredictable (d : Defect)
  /-- Raised by a coprocessor 14 instruction other than the three of 46_arm_coprocessor.md R490 (R494, U33). Safe. -/
  | cp14Undescribed
  /-- Raised in debug state by an instruction outside the list of 61_debug.md R772 (U20). Safe. -/
  | notInDebugState
  /-- Raised by a system-speed step on an instruction that is no load or store (R784). Safe. -/
  | notAtSystemSpeed
  /-- Raised by a system-speed step with the single-step bit set (R821). Safe. -/
  | singleStepSystemSpeed
  /-- Raised by a debugger move that needs debug state while the core is not in it (R856). Safe. -/
  | needsDebugState
  /-- Raised by nRESET going LOW in debug state (92_eei_decisions.md D16), where the run is one that refuses such (log 45). Safe. -/
  | resetInDebug
  /-- Raised by production test: the core clocked from scan chain 0, or running while scan cells stand between it and the
  system (00_scope.md R12, 61_debug.md R770). Safe. -/
  | productionTest
deriving DecidableEq, Repr

/-- Sizes of a data access, DMAS[1:0] (20_memory.md R104). -/
inductive Size where
  | byte | half | word
deriving DecidableEq, Repr

/-- One data access as it appears on the pins (62_signals.md R863, R873). -/
structure BusEvent where
  addr : Word
  size : Size
  write : Bool
  /-- The value read, or the value on DD for a write. -/
  value : Word
  /-- DnTRANS: HIGH for a privileged access. -/
  trans : Bool
  /-- DnM[4:0]. -/
  mode : BitVec 5
  /-- DLOCK. -/
  lock : Bool
  /-- DABORT answered. -/
  aborted : Bool
  /-- The access was sequential to the one before it, DSEQ (R103). -/
  seq : Bool
  /-- DMORE: a sequential access was to follow directly (R106). -/
  more : Bool
deriving DecidableEq, Repr

/-- What an instruction says of an access besides address, size and direction: DLOCK, DSEQ and DMORE (R103, R106, R141). -/
structure Beat where
  lock : Bool
  seq : Bool
  more : Bool
deriving DecidableEq, Repr

/-- An access by itself. -/
def Beat.single : Beat := ⟨false, false, false⟩

/-- An access of a swap (R141). DESIGN CHOICE (log 37): the second one, too, is shown non-sequential; R422 and C5 take no position. -/
def Beat.locked : Beat := ⟨true, false, false⟩

/-- What the outputs of the data interface show between two steps of the core (R103, 61_debug.md R763). -/
structure DataPort where
  /-- The latest transfer, which internal cycles retain; none before the first. -/
  event : Option BusEvent
  /-- It was a coprocessor transfer. -/
  cop : Bool
  /-- It was made on the bus by the latest step of the core. -/
  live : Bool
  /-- Its word was on IA as well as on DA (46_arm_coprocessor.md R488). -/
  onIa : Bool
deriving DecidableEq, Repr

/-- What a rule of the memory system answers (20_memory.md R143, R146, R162). -/
inductive MemAnswer where
  /-- DABORT, or IABORT for a fetch; an aborted store changes memory all the same when `lands`. -/
  | abort (lands : Bool)
  /-- A device: a read gives any value, a write leaves memory as it is. -/
  | device
  /-- Memory that can be read and not written. -/
  | readOnly
deriving DecidableEq, Repr

/-- One rule of the memory system: which accesses it concerns, by everything the core sends with an access, and what it answers
(20_memory.md R146, 60_exceptions.md R724, 62_signals.md R864). -/
structure MemRule where
  lo : Nat
  hi : Nat
  onFetch : Bool
  onRead : Bool
  onWrite : Bool
  /-- The sizes it concerns, DMAS; none listed means every size. A fetch has the width of an instruction. -/
  sizes : List Size
  /-- The rule concerns user-mode accesses (TRANS LOW). -/
  user : Bool
  /-- The rule concerns privileged accesses (TRANS HIGH). -/
  priv : Bool
  /-- The mode it concerns, InM or DnM; none means every mode. -/
  mode : Option (BitVec 5)
  answer : MemAnswer
deriving DecidableEq, Repr

/-- The memory system around the core. -/
structure MemSystem where
  /-- The first rule that concerns an access answers it; an access that none concerns reaches memory. -/
  rules : List MemRule
  /-- The words of a block store after the aborting one reach memory (60_exceptions.md R685). -/
  lateStores : Bool
  /-- Ranges of addresses that the instruction interface finds in a store of its own (92_eei_decisions.md D5). -/
  split : List (Nat × Nat)
  /-- An abort cancels the rest of a block transfer (62_signals.md R882; 60_exceptions.md R685, log 18). -/
  cancels : Bool
  /-- What the other bus masters write between two accesses of one instruction: an entry for each such gap to come
  (20_memory.md R142, 92_eei_decisions.md D6); none left means that they write nothing. -/
  others : List (List (Word × Byte))
  /-- The memory controller honours DLOCK: no other master comes between the two accesses of a swap (20_memory.md R141, R142). -/
  locks : Bool
  /-- nRESET strikes after this many more data accesses (70_reset_and_hazards.md R900). -/
  budget : Option Nat
deriving DecidableEq, Repr

/-- The handshake states of CHSD[1:0] and CHSE[1:0] (46_arm_coprocessor.md R464). -/
inductive Chs where
  | absent | wait | go | last
deriving DecidableEq, Repr

/-- One answer of the coprocessors to an offered instruction (46_arm_coprocessor.md R464, R471). -/
inductive CpReply where
  /-- WAIT: one cycle of busy-wait. -/
  | wait
  /-- WAIT for ever (R471). -/
  | stall
  /-- ABSENT. -/
  | absent
  /-- GO^go LAST, with the words the coprocessor supplies for MRC and STC. -/
  | accept (go : Nat) (data : List Word)
deriving DecidableEq, Repr

/-- What the core hands to the coprocessors (R461, R481, R484). -/
inductive CpEvent where
  /-- An accepted instruction, and the InTRANS level it was offered with (R479). -/
  | instr (i : Instr) (trans : Bool)
  /-- The register of an MCR. -/
  | moved (v : Word)
  /-- One word of an LDC. -/
  | loaded (v : Word)
  /-- PASS goes LOW during a busy-wait: the instruction is abandoned (R462, R476). -/
  | abandoned
  /-- LATECANCEL for the instruction behind one whose data access aborted (R478). -/
  | cancelled (i : Instr)
deriving DecidableEq, Repr

/-- The coprocessors around the core; no reply left means ABSENT (D10, R465). -/
structure Coproc where
  replies : List CpReply
  log : List CpEvent
deriving DecidableEq, Repr

/-- Levels of the input pins and the parameters of a run (00_scope.md R15, 62_signals.md R870, R871). A field named
`...Low` is true when the active-LOW pin is LOW. -/
structure Pins where
  bigend : Bool
  hivecs : Bool
  dbgen : Bool
  isync : Bool
  unien : Bool
  tapid : Word
  nirqLow : Bool
  nfiqLow : Bool
  /-- nIRQ was LOW since the last boundary and is HIGH now (60_exceptions.md R692). -/
  irqPulse : Bool
  /-- nFIQ was LOW since the last boundary and is HIGH now. -/
  fiqPulse : Bool
  edbgrq : Bool
  iebkpt : Bool
  dewpt : Bool
  extern0 : Bool
  extern1 : Bool
  ntrstLow : Bool
  sdoutbs : Bool
  /-- The MODEL's own parameter of a run (log 45): the refusals that the spec rules are made where, without them, the machine would go
  on: R591 and U11, R629 and U2, D16. -/
  strict : Bool
deriving DecidableEq, Repr

/-- One fetched instruction of the prefetch queue (10_state.md R77, R79). -/
structure Slot where
  /-- ID[31:0] of its fetch. -/
  id : Word
  /-- IABORT was asserted. -/
  aborted : Bool
  /-- The latched Breakpoint mark (61_debug.md R746). -/
  marked : Bool
deriving DecidableEq, Repr

/-- The pipeline as far as a program or a debugger can see it (10_state.md R77, R79; 70_reset_and_hazards.md R915, R921). -/
structure Pipe where
  /-- The prefetch queue: the instruction at the PC and up to two that follow it (R77). -/
  queue : List Slot
  /-- Slots already fetched that a store has written since (20_memory.md R150). -/
  stale : List Word
  /-- The PC advanced past 0xFFFFFFFF (R50). -/
  wrapped : Bool
  /-- The instruction just executed was LDM (2) or STM (2) (R921). -/
  userBank : Bool
  /-- A coprocessor instruction is busy-waiting (46_arm_coprocessor.md R473). -/
  busyWait : Bool
  /-- The fetch from the vector carries the vector-catch mark (61_debug.md R815). -/
  caught : Bool
  /-- Instruction fetches that DBGACK still masks after debug state was left (61_debug.md R764). -/
  ackFetches : Nat
deriving DecidableEq, Repr

/-- One watchpoint unit (10_state.md R62 to R67, 61_debug.md R812). -/
structure Watch where
  addrValue : Word
  addrMask : Word
  dataValue : Word
  dataMask : Word
  ctlValue : BitVec 9
  /-- Bit 3 is always clear (R65). -/
  ctlMask : BitVec 8
  chainOut : Bool
  rangeOut : Bool
deriving DecidableEq, Repr

/-- The EmbeddedICE macrocell (10_state.md R58 to R73). -/
structure Ice where
  dbgCtl : BitVec 4
  vecCatch : BitVec 8
  w0 : Watch
  w1 : Watch
  /-- Comms data read register: the debugger writes it, the processor reads it (R68). -/
  commsRead : Word
  /-- Comms data write register: the processor writes it, the debugger reads it (R68). -/
  commsWrite : Word
  /-- W bit of the comms control register (R69). -/
  wBit : Bool
  /-- R bit of the comms control register (R69). -/
  rBit : Bool
  /-- W and R as the processor sees them, synchronised to GCLK (R70, 61_debug.md R843). -/
  wCore : Bool
  rCore : Bool
  /-- W and R as the debugger sees them, synchronised to TCK. -/
  wDbg : Bool
  rDbg : Bool
deriving DecidableEq, Repr

/-- The sixteen states of the TAP controller (61_debug.md R790); their TAPSM codes are not known (U42). -/
inductive TapState where
  | testLogicReset | runTestIdle | selectDr | captureDr | shiftDr | exit1Dr | pauseDr | exit2Dr | updateDr
  | selectIr | captureIr | shiftIr | exit1Ir | pauseIr | exit2Ir | updateIr
deriving DecidableEq, Repr

/-- How the cells of a scan chain stand between core and system (61_debug.md R845 to R854). -/
inductive CellMode where
  /-- System mode: the cells intercept nothing. -/
  | normal
  /-- EXTEST and INTEST. -/
  | test
  /-- CLAMP: the outputs come from the cells. -/
  | clamp
  /-- HIGHZ. -/
  | highz
  /-- CLAMPZ: the outputs are disabled, their data comes from the cells. -/
  | clampz
deriving DecidableEq, Repr

/-- The TAP controller and its registers (10_state.md R75, 61_debug.md R793 to R800). DESIGN CHOICE (log 32): scan chains 0 and 1 are two
registers, and what is shifted into one is not in the other, although the cells of chain 1 are numbers 1 to 67 of chain 0. -/
structure Tap where
  st : TapState
  ir : BitVec 4
  irShift : BitVec 4
  screg : BitVec 5
  scShift : BitVec 5
  bypass : Bool
  idReg : Word
  chain0 : BitVec 184
  chain1 : BitVec 67
  chain2 : BitVec 38
  /-- Serial order of scan chain 1: entry k is the number (Table 6-1) of the cell that is k places from TDO (U35). -/
  order : List Nat
  /-- Cell 184 of scan chain 0, and not cell 1, is nearest TDO (61_debug.md R798). -/
  flip0 : Bool
  tdo : Bool
  /-- SDIN: the serial data applied to an external chain (62_signals.md R866). -/
  sdin : Bool
  cells : CellMode
  /-- The chain whose cells `cells` speaks of: the one selected when the instruction was loaded. -/
  cellChain : BitVec 5
deriving DecidableEq, Repr

/-- How far a latched watchpoint is on its way to debug state (61_debug.md R752): hit by the running instruction, one
more instruction to go, due at this boundary. -/
inductive WatchStage where
  | idle | hit | armed | due
deriving DecidableEq, Repr

/-- Debug state (10_state.md R79, 61_debug.md R758 to R788). -/
structure Dbg where
  inDebug : Bool
  /-- A system-speed access is being made (R782). -/
  sysSpeed : Bool
  /-- What SYSSPEED shows when first captured after entry (R756, R784). -/
  sysspeedBit : Bool
  /-- SYSCOMP: HIGH once a system-speed access has completed (10_state.md R60, R783). DESIGN CHOICE (log 28): it is never LOW again. -/
  sysComp : Bool
  /-- Load data scanned in and not yet taken by a load (R760). -/
  ddIn : List Word
  /-- Store data not yet scanned out, oldest first (R760). -/
  ddOut : List Word
  /-- The instruction scanned in last, which waits for the SYSSPEED bit of the next one (R781). -/
  pending : Option Word
  /-- That bit was HIGH: the pending instruction waits for RESTART (R782, R787). -/
  restart : Bool
  /-- Scanned instructions still to be dropped as pipeline fillers (R774). -/
  discard : Nat
  watch : WatchStage
  stepArmed : Bool
  stepDue : Bool
  /-- How often DBGACK has fallen and risen again behind a system-speed access (R764). -/
  ackFalls : Nat
  /-- Scan passes since entry that neither took an instruction as the pending one nor ran one: IA moved on with each (R763). -/
  scans : Nat
deriving DecidableEq, Repr

/-- Input pins that a move can drive (62_signals.md R871). HIGH is true. -/
inductive Pin where
  | nirq | nfiq | edbgrq | iebkpt | dewpt | extern0 | extern1 | sdoutbs
deriving DecidableEq, Repr

/-- One move of one agent (00_scope.md R16). -/
inductive Move where
  /-- The core makes one step. -/
  | core
  /-- The core makes one instruction fetch of those that its next step begins with, so that the inputs which mark a fetch can change
  before the next one (61_debug.md R746, log 36). -/
  | fetch
  /-- An input pin takes a level. -/
  | pin (p : Pin) (high : Bool)
  /-- Another bus master writes one byte (92_eei_decisions.md D6). -/
  | busWrite (addr : Word) (v : Byte)
  /-- The store behind the instruction interface alone changes in one byte (D5, 62_signals.md R871). -/
  | codeWrite (addr : Word) (v : Byte)
  /-- The memory system changes how it answers (R146). -/
  | memRules (rules : List MemRule)
  /-- What the other bus masters will write between the accesses of the instructions to come (20_memory.md R142, D6). -/
  | othersWrite (gaps : List (List (Word × Byte)))
  /-- A coprocessor's answer joins the queue (R471). -/
  | cpReply (r : CpReply)
  /-- CHSD and then CHSE, cycle by cycle, as each attached coprocessor drives them, and the words they supply (R463, R464). -/
  | cpCodes (cycles : List (List (BitVec 2))) (data : List Word)
  /-- One TCK cycle with TMS and TDI (61_debug.md R790). -/
  | tck (tms tdi : Bool)
  /-- nTRST takes a level (R791). -/
  | trst (low : Bool)
  /-- nRESET takes a level, between two instructions (70_reset_and_hazards.md R900, R901). -/
  | reset (low : Bool)
  /-- nRESET goes LOW while the next instruction runs, after `k` of its data accesses (R900). -/
  | resetDuring (k : Nat)
  /-- The comms status bits reach the debugger's clock, or the processor's (61_debug.md R843). -/
  | commsSync (toDebugger : Bool)
  /-- The debugger reads an EmbeddedICE register (61_debug.md R856). -/
  | iceRead (a : BitVec 5)
  /-- The debugger writes an EmbeddedICE register (R856). -/
  | iceWrite (a : BitVec 5) (v : Word)
  /-- The debugger executes an instruction at debug speed (R771, R856). -/
  | debugStep (instr : Word) (ddIn : List Word)
  /-- The debugger executes an instruction at system speed (R782, R856). -/
  | systemStep (instr : Word)
  /-- The debugger leaves debug state (R787, R856). -/
  | exitDebug (target : Word)
deriving DecidableEq, Repr

/-- The machine. -/
structure State where
  /-- 30 general registers: 0 to 14 are R0 to R14 of User and System, 15 to 21 R8_fiq to R14_fiq, then R13 and R14 of irq,
  svc, abt and und (10_state.md R40). -/
  regs : Vector Word 30
  /-- Address of the next instruction to execute (R46). -/
  pc : Word
  cpsr : Word
  /-- SPSR_fiq, SPSR_irq, SPSR_svc, SPSR_abt, SPSR_und (R53). -/
  spsr : Vector Word 5
  /-- Memory behind the data interface, and behind both at every address outside `sys.split`. -/
  mem : List Host.Cell
  /-- Memory behind the instruction interface at the addresses of `sys.split`. -/
  imem : List Host.Cell
  pins : Pins
  sys : MemSystem
  cop : Coproc
  /-- Trace of the data accesses, latest first. -/
  bus : List BusEvent
  /-- What the data interface shows. -/
  port : DataPort
  pipe : Pipe
  ice : Ice
  tap : Tap
  dbg : Dbg
  /-- nRESET is LOW. -/
  inReset : Bool
  /-- INSTREXEC (62_signals.md R867). -/
  instrExec : Bool
  /-- PASS (46_arm_coprocessor.md R462). -/
  pass : Bool
  /-- LATECANCEL (R478). -/
  lateCancel : Bool
  /-- The MODEL's own: the cells that the running instruction has written, 0 to 29 registers and 30 to 34 SPSRs (R93, log 24). -/
  wrote : List Nat
  /-- The MODEL's own: how many free values have been drawn (log 10). -/
  draws : Nat
  /-- The MODEL's own: the moves still to come; none left means the core moves (log 36). -/
  schedule : List Move
deriving DecidableEq, Repr

/-- A unit with its registers clear: disabled, matching nothing it is asked about (R97, log 3). -/
def Watch.clear : Watch := ⟨0, 0, 0, 0, 0, 0, false, false⟩

/-- The EmbeddedICE macrocell after nTRST (R96, R97, D16; unspecified registers zero, log 3). -/
def Ice.clear : Ice := ⟨0, 0, Watch.clear, Watch.clear, 0, 0, false, false, false, false, false, false⟩

/-- The TAP controller after nTRST (R96, R98): Test-Logic-Reset, IDCODE, scan chain 3. -/
def Tap.clear : Tap :=
  ⟨.testLogicReset, 0b1110#4, 0, 3#5, 0, false, 0, 0, 0, 0, (List.range 67).map (· + 1), false, false, false,
    .normal, 3#5⟩

/-- Not in debug state, nothing latched (R98). DESIGN CHOICE: SYSCOMP is LOW here (log 28) and so is SYSSPEED (log 29); no rule
gives either a reset value. -/
def Dbg.clear : Dbg := ⟨false, false, false, false, [], [], none, false, 0, .idle, false, false, 0, 0⟩

/-- An empty prefetch queue and no hazard (R98). -/
def Pipe.clear : Pipe := ⟨[], [], false, false, false, false, 0⟩

/-- The default pins: parameters LOW, TAPID with bit 0 set as its format has it (R76), interrupts inactive, nTRST held LOW
(D13, D14, log 4), and the spec's refusals made (log 45). -/
def Pins.initial : Pins :=
  ⟨false, false, false, false, false, 1, false, false, false, false, false, false, false, false, false, true, false, true⟩

/-- The machine right after nRESET and nTRST, at power-up (10_state.md R91 to R98): Supervisor mode, ARM state, both
interrupts masked, PC at the reset vector; what the spec leaves unspecified is zero (log 1 to log 5). DESIGN CHOICE (log 18, log 19):
no rule of the memory system, aborts cancel nothing, later words of an aborted store do not land, and DLOCK is honoured. -/
def State.reset : State where
  regs := Vector.replicate 30 0
  pc := 0
  cpsr := 0x000000D3
  spsr := Vector.replicate 5 0
  mem := []
  imem := []
  pins := Pins.initial
  sys := ⟨[], false, [], false, [], true, none⟩
  cop := ⟨[], []⟩
  bus := []
  port := ⟨none, false, false, false⟩
  pipe := Pipe.clear
  ice := Ice.clear
  tap := Tap.clear
  dbg := Dbg.clear
  inReset := false
  instrExec := false
  pass := false
  lateCancel := false
  wrote := []
  draws := 0
  schedule := []

/-- What a meaning answers. -/
abbrev Result := Host.Outcome State Fault Refusal

end Sys2Proof.Machine
end

