-- ==== Sys2Proof/Machine/Flags.lean ====
section
/-!
DEFINITION. The CPSR's fields (10_state.md R51), the condition table (30_encoding.md R172), and every flag computation of the
two instruction sets (40_arm_data_processing.md R253, R262).
-/

namespace Sys2Proof.Machine

/-- N, CPSR bit 31. -/
def flagN (p : Word) : Bool := p.getLsbD 31
/-- Z, CPSR bit 30. -/
def flagZ (p : Word) : Bool := p.getLsbD 30
/-- C, CPSR bit 29. -/
def flagC (p : Word) : Bool := p.getLsbD 29
/-- V, CPSR bit 28. -/
def flagV (p : Word) : Bool := p.getLsbD 28
/-- I, CPSR bit 7: IRQ disabled. -/
def maskI (p : Word) : Bool := p.getLsbD 7
/-- F, CPSR bit 6: FIQ disabled. -/
def maskF (p : Word) : Bool := p.getLsbD 6
/-- T, CPSR bit 5: Thumb state. -/
def bitT (p : Word) : Bool := p.getLsbD 5
/-- M[4:0], the processor mode. -/
def modeOf (p : Word) : BitVec 5 := p.extractLsb' 0 5

/-- A PSR with new condition flags; bits 27:0 are kept. -/
def withNZCV (p : Word) (n z c v : Bool) : Word := (bit n ++ bit z ++ bit c ++ bit v) ++ p.extractLsb' 0 28

/-- `ConditionPassed` (30_encoding.md R172). The row 0b1111 never reaches it: it is refused first (R173). -/
def conditionPassed (c : Cond) (p : Word) : Bool :=
  match c with
  | .eq => flagZ p
  | .ne => !flagZ p
  | .cs => flagC p
  | .cc => !flagC p
  | .mi => flagN p
  | .pl => !flagN p
  | .vs => flagV p
  | .vc => !flagV p
  | .hi => flagC p && !flagZ p
  | .ls => !flagC p || flagZ p
  | .ge => flagN p == flagV p
  | .lt => flagN p != flagV p
  | .gt => !flagZ p && flagN p == flagV p
  | .le => flagZ p || flagN p != flagV p
  | .al => true
  | .nv => false

/-- `CarryFrom(x + y + c)` over unbounded integers (R262). -/
def carryFrom (x y : Word) (c : Bool) : Bool := decide (2 ^ 32 ≤ x.toNat + y.toNat + c.toNat)

/-- `BorrowFrom(x - y - b)` (R262). -/
def borrowFrom (x y : Word) (b : Bool) : Bool := decide (x.toNat < y.toNat + b.toNat)

/-- `(x + y + c) mod 2^32`. -/
def addc (x y : Word) (c : Bool) : Word := x + y + BitVec.ofNat 32 c.toNat

/-- `(x - y - b) mod 2^32`. -/
def subb (x y : Word) (b : Bool) : Word := x - y - BitVec.ofNat 32 b.toNat

/-- `OverflowFrom(x + y + c)` (R262). -/
def overflowAdd (x y : Word) (c : Bool) : Bool := x.msb == y.msb && (addc x y c).msb != x.msb

/-- `OverflowFrom(x - y - b)` (R262). -/
def overflowSub (x y : Word) (b : Bool) : Bool := x.msb != y.msb && (subb x y b).msb != x.msb

/-- A result with the C and V flags it leaves. -/
structure AluOut where
  res : Word
  c : Bool
  v : Bool
deriving DecidableEq, Repr

/-- The logical row of R253: C is the shifter's carry, V is kept. -/
def logical (p : Word) (res : Word) (sh : Bool) : AluOut := ⟨res, sh, flagV p⟩

/-- The addition row of R253. -/
def addition (x y : Word) (c : Bool) : AluOut := ⟨addc x y c, carryFrom x y c, overflowAdd x y c⟩

/-- The subtraction row of R253: C is NOT borrow. -/
def subtraction (x y : Word) (b : Bool) : AluOut := ⟨subb x y b, !borrowFrom x y b, overflowSub x y b⟩

/-- A PSR with the four flags of a result (R253). -/
def flagsOf (p : Word) (o : AluOut) : Word := withNZCV p o.res.msb (o.res == 0#32) o.c o.v

/-- The sixteen data-processing operations (30_encoding.md R175). -/
inductive DpOp where
  | and | eor | sub | rsb | add | adc | sbc | rsc | tst | teq | cmp | cmn | orr | mov | bic | mvn
deriving DecidableEq, Repr

/-- The result and flags of an operation on the first operand `a` and the shifter operand `b` with shifter carry `sh`
(40_arm_data_processing.md R263 to R278); `p` is the CPSR before. -/
def alu (op : DpOp) (p a b : Word) (sh : Bool) : AluOut :=
  match op with
  | .and | .tst => logical p (a &&& b) sh
  | .eor | .teq => logical p (a ^^^ b) sh
  | .sub | .cmp => subtraction a b false
  | .rsb => subtraction b a false
  | .add | .cmn => addition a b false
  | .adc => addition a b (flagC p)
  | .sbc => subtraction a b (!flagC p)
  | .rsc => subtraction b a (!flagC p)
  | .orr => logical p (a ||| b) sh
  | .mov => logical p b sh
  | .bic => logical p (a &&& ~~~b) sh
  | .mvn => logical p (~~~b) sh

end Sys2Proof.Machine
end

