-- ==== Sys2Proof/Machine/Ice.lean ====
section
/-!
DEFINITION. The comparators of the EmbeddedICE macrocell (61_debug.md R803 to R812), its register file as scan chain 2 sees it
(10_state.md R58 to R70, 61_debug.md R800, R825, R826), and the debug outputs.
-/

namespace Sys2Proof.Machine

/-- `field_match`: a 1 in the mask ignores the bit (61_debug.md R804, R805). -/
def fieldMatch {n : Nat} (value mask signal : BitVec n) : Bool := (value ^^^ signal) &&& ~~~mask == 0#n

/-- The signals one access presents to the units: address, data, and control bits 5:0 (R806, R807). -/
structure Probe where
  /-- The data interface makes the access. -/
  data : Bool
  addr : Word
  value : Word
  /-- Control bits 4:0: TRANS, interface, and DMAS with DnRW, or X, ITBIT, X. -/
  ctl : BitVec 5
deriving DecidableEq, Repr

/-- DMAS[1:0] of a size (20_memory.md R104). -/
def Size.dmas : Size → BitVec 2
  | .byte => 0b00#2
  | .half => 0b01#2
  | .word => 0b10#2

/-- The probe of a data access (R806). -/
def dataProbe (addr value : Word) (size : Size) (write trans : Bool) : Probe :=
  ⟨true, addr, value, bit trans ++ 1#1 ++ Size.dmas size ++ bit write⟩

/-- The probe of a fetch: IA has no bit 0, ITBIT stands at bit 1 (R805, R807). Address bit 0 and control bits 2 and 0 have no signal
and must be masked; DESIGN CHOICE (log 31): a debugger that leaves them unmasked compares them against LOW. -/
def fetchProbe (addr value : Word) (thumb trans : Bool) : Probe :=
  ⟨false, addr &&& 0xFFFFFFFE#32, value, bit trans ++ 0#1 ++ 0#1 ++ bit thumb ++ 0#1⟩

/-- Does the unit watch the interface of this access (10_state.md R66)? -/
def Watch.looksAt (u : Watch) (p : Probe) : Bool := u.ctlValue.getLsbD 3 == p.data

/-- `addr_match` and `ctrl_match` of R805; EXTERN, CHAIN and RANGE are the unit's inputs. -/
def Watch.addrCtl (u : Watch) (p : Probe) (ext chain range : Bool) : Bool :=
  fieldMatch u.addrValue u.addrMask p.addr &&
    fieldMatch (u.ctlValue.extractLsb' 0 8) u.ctlMask (bit range ++ bit chain ++ bit ext ++ p.ctl)

/-- `data_match` of R805. -/
def Watch.dataOk (u : Watch) (p : Probe) : Bool := fieldMatch u.dataValue u.dataMask p.value

/-- The unit after an access it watches: RANGEOUT is the match, the CHAINOUT latch takes the data comparison when address and
control match (R808, R812). An access of the other interface changes nothing. DBGEN LOW forces RANGEOUT LOW (62_signals.md
R882); while nTRST is LOW the latch stays clear (R808). -/
def Watch.see (u : Watch) (pins : Pins) (p : Probe) (ext chain range : Bool) : Watch :=
  if Watch.looksAt u p then
    let ac := Watch.addrCtl u p ext chain range
    { u with
      rangeOut := pins.dbgen && ac && Watch.dataOk u p
      chainOut := !pins.ntrstLow && if ac then Watch.dataOk u p else u.chainOut }
  else u

/-- The unit requests debug for this access: it watches it, matches, and is enabled (R805, R810). -/
def Watch.hits (u : Watch) (p : Probe) (ext chain range : Bool) : Bool :=
  Watch.looksAt u p && Watch.addrCtl u p ext chain range && Watch.dataOk u p && u.ctlValue.getLsbD 8

/-- Both units after an access: unit 1 first, with its CHAIN and RANGE inputs LOW (U36), then unit 0 with unit 1's CHAINOUT and
RANGEOUT (R808, R809). -/
def Ice.see (ice : Ice) (pins : Pins) (p : Probe) : Ice :=
  let u1 := Watch.see ice.w1 pins p pins.extern1 false false
  { ice with w1 := u1, w0 := Watch.see ice.w0 pins p pins.extern0 u1.chainOut u1.rangeOut }

/-- Does either unit request debug for this access? Asked of the macrocell before `Ice.see`. -/
def Ice.hit (ice : Ice) (pins : Pins) (p : Probe) : Bool :=
  let u1 := Watch.see ice.w1 pins p pins.extern1 false false
  Watch.hits ice.w1 p pins.extern1 false false || Watch.hits ice.w0 p pins.extern0 u1.chainOut u1.rangeOut

/-- DBGRQI: EDBGRQ or bit 1 of the debug control register (61_debug.md R745), forced LOW by DBGEN LOW (62_signals.md R882). -/
def dbgrqi (s : State) : Bool := s.pins.dbgen && (s.pins.edbgrq || s.ice.dbgCtl.getLsbD 1)

/-- DBGACK: in debug state, in the first three fetches after it (61_debug.md R764), or forced by debug control bit 0 (10_state.md
R59). -/
def dbgack (s : State) : Bool := s.dbg.inDebug || s.pipe.ackFetches != 0 || s.ice.dbgCtl.getLsbD 0

/-- IFEN: interrupts are enabled, outside debug state and without INTDIS (60_exceptions.md R694, 10_state.md R59). -/
def ifen (s : State) : Bool := !s.dbg.inDebug && !s.ice.dbgCtl.getLsbD 2

/-- COMMRX, for the interrupt controller on the processor's side (10_state.md R71, log 40). -/
def commrx (s : State) : Bool := s.ice.rCore

/-- COMMTX (10_state.md R71, log 40). -/
def commtx (s : State) : Bool := !s.ice.wCore

/-- The debug status register (10_state.md R60). DESIGN CHOICE (log 40): ITBIT is the T bit as it stands, also after the debugger has
changed the state; R60 gives both the state the processor is in and that on entry. -/
def debugStatus (s : State) : BitVec 5 :=
  bit (bitT s.cpsr) ++ bit s.dbg.sysComp ++ bit (ifen s) ++ bit (dbgrqi s) ++ bit (dbgack s)

/-- The comms control register with the W and R bits that the reader's side sees; bits 27:2 are free (10_state.md R69, R70,
U32). -/
def commsControl (s : State) (w r : Bool) : Word :=
  0b0010#4 ++ (Config.freeWord s.draws).extractLsb' 2 26 ++ bit w ++ bit r

/-- A register narrower than 32 bits: its upper bits read as any value (U30). -/
def widen {n : Nat} (s : State) (v : BitVec n) : Word :=
  v.setWidth 32 ||| ((Config.freeWord s.draws) <<< n)

/-- The registers of one unit by the low three bits of the address (10_state.md R58). -/
def Watch.readReg (s : State) (u : Watch) (k : Nat) : Word :=
  match k with
  | 0 => u.addrValue
  | 1 => u.addrMask
  | 2 => u.dataValue
  | 3 => u.dataMask
  | 4 => widen s u.ctlValue
  | 5 => widen s u.ctlMask
  | _ => Config.freeWord s.draws

/-- The unit after a write; writing the control value clears CHAINOUT (R67), mask bit 3 stays clear (R65). -/
def Watch.writeReg (u : Watch) (k : Nat) (v : Word) : Watch :=
  match k with
  | 0 => { u with addrValue := v }
  | 1 => { u with addrMask := v }
  | 2 => { u with dataValue := v }
  | 3 => { u with dataMask := v }
  | 4 => { u with ctlValue := v.extractLsb' 0 9, chainOut := false }
  | 5 => { u with ctlMask := v.extractLsb' 0 8 &&& 0xF7#8 }
  | _ => u

/-- The value of a scan chain 2 read (R800); vector catch bit 5 and unlisted addresses read as any value (U30, U31). -/
def iceReadValue (s : State) (a : BitVec 5) : Word :=
  match a.toNat with
  | 0 => widen s s.ice.dbgCtl
  | 1 => widen s (debugStatus s)
  | 2 => widen s ((s.ice.vecCatch &&& 0xDF#8) ||| (bit (Config.freeBit s.draws) ++ 0#5).setWidth 8)
  | 4 => commsControl s s.ice.wDbg s.ice.rDbg
  | 5 => s.ice.commsWrite
  | 8 => Watch.readReg s s.ice.w0 0
  | 9 => Watch.readReg s s.ice.w0 1
  | 10 => Watch.readReg s s.ice.w0 2
  | 11 => Watch.readReg s s.ice.w0 3
  | 12 => Watch.readReg s s.ice.w0 4
  | 13 => Watch.readReg s s.ice.w0 5
  | 16 => Watch.readReg s s.ice.w1 0
  | 17 => Watch.readReg s s.ice.w1 1
  | 18 => Watch.readReg s s.ice.w1 2
  | 19 => Watch.readReg s s.ice.w1 3
  | 20 => Watch.readReg s s.ice.w1 4
  | 21 => Watch.readReg s s.ice.w1 5
  | _ => Config.freeWord s.draws

/-- The state after a scan chain 2 read: reading the comms data register clears W, which the debugger sees at once (R70); a free value may
have been drawn. -/
def iceReadEffect (s : State) (a : BitVec 5) : State :=
  { s with
    ice := if a = 5#5 then { s.ice with wBit := false, wDbg := false } else s.ice
    draws := s.draws + 1 }

/-- The macrocell after a scan chain 2 write (R800): status and comms control ignore it, the comms data address writes the
data read register and sets R, which the debugger sees at once (R70), vector catch bit 5 is not written (U31), unlisted addresses ignore it (U30). -/
def Ice.write (ice : Ice) (a : BitVec 5) (v : Word) : Ice :=
  match a.toNat with
  | 0 => { ice with dbgCtl := v.extractLsb' 0 4 }
  | 2 => { ice with vecCatch := v.extractLsb' 0 8 &&& 0xDF#8 }
  | 5 => { ice with commsRead := v, rBit := true, rDbg := true }
  | 8 => { ice with w0 := Watch.writeReg ice.w0 0 v }
  | 9 => { ice with w0 := Watch.writeReg ice.w0 1 v }
  | 10 => { ice with w0 := Watch.writeReg ice.w0 2 v }
  | 11 => { ice with w0 := Watch.writeReg ice.w0 3 v }
  | 12 => { ice with w0 := Watch.writeReg ice.w0 4 v }
  | 13 => { ice with w0 := Watch.writeReg ice.w0 5 v }
  | 16 => { ice with w1 := Watch.writeReg ice.w1 0 v }
  | 17 => { ice with w1 := Watch.writeReg ice.w1 1 v }
  | 18 => { ice with w1 := Watch.writeReg ice.w1 2 v }
  | 19 => { ice with w1 := Watch.writeReg ice.w1 3 v }
  | 20 => { ice with w1 := Watch.writeReg ice.w1 4 v }
  | 21 => { ice with w1 := Watch.writeReg ice.w1 5 v }
  | _ => ice

/-- A unit after nTRST: disabled, its CHAINOUT clear, its value and mask registers unspecified (R96, R97, D16). Mask bit 3
stays clear (R65). -/
def Watch.trst (u : Watch) (n : Nat) : Watch :=
  { u with
    addrValue := Config.freeWord n
    addrMask := Config.freeWord (n + 1)
    dataValue := Config.freeWord (n + 2)
    dataMask := Config.freeWord (n + 3)
    ctlValue := 0#9
    ctlMask := (Config.freeWord (n + 4)).extractLsb' 0 8 &&& 0xF7#8
    chainOut := false }

/-- nTRST LOW: debug control, vector catch, control values, CHAINOUT, W and R clear; every other register of the macrocell
unspecified (R97, D16). `n` is the number of the first of the twelve free values. -/
def Ice.trst (ice : Ice) (n : Nat) : Ice :=
  { dbgCtl := 0#4
    vecCatch := 0#8
    w0 := Watch.trst ice.w0 n
    w1 := Watch.trst ice.w1 (n + 5)
    commsRead := Config.freeWord (n + 10)
    commsWrite := Config.freeWord (n + 11)
    wBit := false
    rBit := false
    wCore := false
    rCore := false
    wDbg := false
    rDbg := false }

/-- The comms status bits reach the other side's clock (10_state.md R70, 61_debug.md R843): when that happens is free, so it is a
move. The data register was written before. DESIGN CHOICE (log 40): W and R cross together, so that a side never sees one change before
another that was made earlier or at the same time. -/
def Ice.sync (ice : Ice) (toDebugger : Bool) : Ice :=
  if toDebugger then { ice with wDbg := ice.wBit, rDbg := ice.rBit }
  else { ice with wCore := ice.wBit, rCore := ice.rBit }

end Sys2Proof.Machine
end

