-- ==== Sys2Proof/Machine/Memory.lean ====
section
/-!
DEFINITION. Byte-addressed memory in one canonical form: addresses strictly rising, below 2^32, no entry equal to what an
unlisted address reads as (20_memory.md R124, R125; log 5). Halfwords and words are built here, so byte order is decided
once.
-/

namespace Sys2Proof.Machine

/-- DESIGN CHOICE (log 5): what a byte reads as that nothing has written. -/
def unlistedByte : Byte := 0#8

/-- The byte at an address. -/
def Memory.read : List Host.Cell → Nat → Byte
  | [], _ => unlistedByte
  | (k, b) :: rest, a => if k = a then b else Memory.read rest a

/-- Memory with one byte changed; writing `unlistedByte` removes the entry. -/
def Memory.write : List Host.Cell → Nat → Byte → List Host.Cell
  | [], a, v => if v = unlistedByte then [] else [(a, v)]
  | (k, b) :: rest, a, v =>
    if a < k then (if v = unlistedByte then (k, b) :: rest else (a, v) :: (k, b) :: rest)
    else if a = k then (if v = unlistedByte then rest else (a, v) :: rest)
    else (k, b) :: Memory.write rest a v

/-- The entries from `lo` up are strictly rising, below 2^32, and none reads as an unlisted byte. -/
def Memory.wfFrom : Nat → List Host.Cell → Bool
  | _, [] => true
  | lo, (k, b) :: rest => decide (lo ≤ k) && decide (k < 2 ^ 32) && (b != unlistedByte) && Memory.wfFrom (k + 1) rest

/-- The canonical form. -/
def Memory.wf (m : List Host.Cell) : Bool := Memory.wfFrom 0 m

/-- Addresses are modulo 2^32 (00_scope.md R18). -/
def byteAddr (a : Word) (i : Nat) : Nat := (a + BitVec.ofNat 32 i).toNat

/-- The aligned bus word that contains an address (20_memory.md R120, R125). -/
def busWordAt (bigend : Bool) (m : List Host.Cell) (a : Word) : Word :=
  let w := a &&& 0xFFFFFFFC#32
  let b := fun i => Memory.read m (byteAddr w i)
  if bigend then b 0 ++ b 1 ++ b 2 ++ b 3 else b 3 ++ b 2 ++ b 1 ++ b 0

/-- The part of the bus word an access takes, zero-extended (20_memory.md R122, R123). A halfword takes the half that holds
its even address. -/
def lane (bigend : Bool) (size : Size) (a : Word) (w : Word) : Word :=
  match size with
  | .word => w
  | .half =>
    if a.getLsbD 1 == bigend then (w.extractLsb' 0 16).setWidth 32 else (w.extractLsb' 16 16).setWidth 32
  | .byte =>
    match a.getLsbD 1 == bigend, a.getLsbD 0 == bigend with
    | true, true => (w.extractLsb' 0 8).setWidth 32
    | true, false => (w.extractLsb' 8 8).setWidth 32
    | false, true => (w.extractLsb' 16 8).setWidth 32
    | false, false => (w.extractLsb' 24 8).setWidth 32

/-- What the core drives on DD for a write: copies on every lane (20_memory.md R121). -/
def ddCopies (size : Size) (v : Word) : Word :=
  match size with
  | .word => v
  | .half => v.extractLsb' 0 16 ++ v.extractLsb' 0 16
  | .byte => v.extractLsb' 0 8 ++ v.extractLsb' 0 8 ++ v.extractLsb' 0 8 ++ v.extractLsb' 0 8

/-- The bytes a store writes, in address order, and the address of the first: a word at the aligned address (R131), a
halfword at its even address, a byte at its address (R124, R125). -/
def storeBytes (bigend : Bool) (size : Size) (a v : Word) : List (Nat × Byte) :=
  match size with
  | .word =>
    let w := a &&& 0xFFFFFFFC#32
    let b := fun i : Nat => v.extractLsb' (if bigend then 24 - 8 * i else 8 * i) 8
    [(byteAddr w 0, b 0), (byteAddr w 1, b 1), (byteAddr w 2, b 2), (byteAddr w 3, b 3)]
  | .half =>
    let h := a &&& 0xFFFFFFFE#32
    let b := fun i : Nat => v.extractLsb' (if bigend then 8 - 8 * i else 8 * i) 8
    [(byteAddr h 0, b 0), (byteAddr h 1, b 1)]
  | .byte => [(byteAddr a 0, v.extractLsb' 0 8)]

/-- Memory after a list of byte writes. -/
def Memory.writeAll (m : List Host.Cell) : List (Nat × Byte) → List Host.Cell
  | [] => m
  | (a, b) :: rest => Memory.writeAll (Memory.write m a b) rest

end Sys2Proof.Machine
end

