-- ==== Sys2Proof/Machine/Ops.lean ====
section
/-!
DEFINITION. The named operations over registers, the PC, the status registers and memory; free values; taking an exception and
returning from one (60_exceptions.md R670, R700).
-/

namespace Sys2Proof.Machine

/-! ## Modes and banks -/

/-- User mode (10_state.md R55). -/
def usrMode : BitVec 5 := 0b10000#5
/-- FIQ mode. -/
def fiqMode : BitVec 5 := 0b10001#5
/-- IRQ mode. -/
def irqMode : BitVec 5 := 0b10010#5
/-- Supervisor mode. -/
def svcMode : BitVec 5 := 0b10011#5
/-- Abort mode. -/
def abtMode : BitVec 5 := 0b10111#5
/-- Undefined mode. -/
def undMode : BitVec 5 := 0b11011#5
/-- System mode. -/
def sysMode : BitVec 5 := 0b11111#5

/-- Is this one of the seven modes (R55)? -/
def legalMode (m : BitVec 5) : Bool :=
  m == usrMode || m == fiqMode || m == irqMode || m == svcMode || m == abtMode || m == undMode || m == sysMode

/-- The current mode. -/
def State.mode (s : State) : BitVec 5 := modeOf s.cpsr

/-- Every mode but User is privileged (60_exceptions.md R720). -/
def State.privileged (s : State) : Bool := s.mode != usrMode

/-- Where register `r` of mode `m` is kept (10_state.md R40). -/
def bankIndex (m : BitVec 5) (r : Reg) : Fin 30 :=
  let k := r.toNat
  if k < 8 then Fin.ofNat 30 k
  else if m = fiqMode then Fin.ofNat 30 (k + 7)
  else if k < 13 then Fin.ofNat 30 k
  else if m = irqMode then Fin.ofNat 30 (k + 9)
  else if m = svcMode then Fin.ofNat 30 (k + 11)
  else if m = abtMode then Fin.ofNat 30 (k + 13)
  else if m = undMode then Fin.ofNat 30 (k + 15)
  else Fin.ofNat 30 k

/-- Which SPSR mode `m` has, if any (R53). -/
def spsrIndex (m : BitVec 5) : Option (Fin 5) :=
  if m = fiqMode then some 0
  else if m = irqMode then some 1
  else if m = svcMode then some 2
  else if m = abtMode then some 3
  else if m = undMode then some 4
  else none

/-- Register `r` of the bank of mode `m`, R15 excluded. -/
def State.bankReg (s : State) (m : BitVec 5) (r : Reg) : Word := s.regs.get (bankIndex m r)

/-- What R15 reads as an operand: + 8 in ARM state, + 4 in Thumb state (10_state.md R47). -/
def State.pcOperand (s : State) : Word := if bitT s.cpsr then s.pc + 4#32 else s.pc + 8#32

/-- What a store of R15 stores: the address of the instruction + 12, or the operand value for a debug-speed instruction
(00_scope.md R3, R348, 61_debug.md R786). DEDUCED (log 25): a system-speed store in debug state stores as R348 has it, its
operand value + 4. -/
def State.pcStored (s : State) : Word :=
  if s.dbg.inDebug && !s.dbg.sysSpeed then s.pcOperand else s.pc + 12#32

/-- `R[r]` as an operand (00_scope.md R20). -/
def State.reg (s : State) (r : Reg) : Word := if r = 15#4 then s.pcOperand else s.bankReg s.mode r

/-- `R[r]` as the data of a store (R348, R397). -/
def State.storedReg (s : State) (r : Reg) : Word := if r = 15#4 then s.pcStored else s.bankReg s.mode r

/-- Write register `r` of the bank of mode `m`; R15 is never written here. -/
def State.setBankReg (s : State) (m : BitVec 5) (r : Reg) (v : Word) : State :=
  if r = 15#4 then s else { s with regs := s.regs.set (bankIndex m r) v, wrote := (bankIndex m r).val :: s.wrote }

/-- `R[r] <- v` for r other than 15. -/
def State.setReg (s : State) (r : Reg) (v : Word) : State := s.setBankReg s.mode r v

/-- A new CPSR. -/
def State.setCpsr (s : State) (p : Word) : State := { s with cpsr := p }

/-- A new SPSR of mode `m`; a mode without one keeps nothing. -/
def State.setSpsr (s : State) (m : BitVec 5) (p : Word) : State :=
  match spsrIndex m with
  | some k => { s with spsr := s.spsr.set k p, wrote := (30 + k.val) :: s.wrote }
  | none => s

/-- The SPSR of mode `m`. -/
def State.spsrOf (s : State) (m : BitVec 5) : Option Word := (spsrIndex m).map fun k => s.spsr.get k

/-- Write the flags of a result (40_arm_data_processing.md R253). -/
def State.setFlags (s : State) (o : AluOut) : State := s.setCpsr (flagsOf s.cpsr o)

/-! ## Free values -/

/-- The next free word. -/
def State.freeWord (s : State) : Word := Config.freeWord s.draws

/-- The next free bit. -/
def State.freeBit (s : State) : Bool := Config.freeBit s.draws

/-- The free value has been used. -/
def State.drawn (s : State) : State := { s with draws := s.draws + 1 }

/-! ## The program counter -/

/-- Length of an instruction of the current state (30_encoding.md R170). -/
def State.width (s : State) : Word := if bitT s.cpsr then 2#32 else 4#32

/-- `pc <- next` without discarding prefetched instructions (00_scope.md R22, 10_state.md R77); running past the top is noted (R50). -/
def State.advance (s : State) : State :=
  { s with
    pc := s.pc + s.width
    pipe := { s.pipe with
      queue := s.pipe.queue.tail
      wrapped := decide (2 ^ 32 ≤ s.pc.toNat + s.width.toNat) && !s.dbg.inDebug
      busyWait := false } }

/-- `pc <- target`: the prefetched instructions are discarded (00_scope.md R20, R430). -/
def State.branchTo (s : State) (target : Word) : State := { s with pc := target, pipe := Pipe.clear }

/-- The prefetched instructions are fetched anew. -/
def State.refill (s : State) : State := { s with pipe := { s.pipe with queue := [] } }

/-- The instruction passed its condition and is executed (62_signals.md R867). -/
def State.executed (s : State) (b : Bool) : State := { s with instrExec := b }

/-! ## Data accesses -/

/-- A debug-speed instruction runs: no access reaches memory (61_debug.md R760). -/
def State.debugSpeed (s : State) : Bool := s.dbg.inDebug && !s.dbg.sysSpeed

/-- DnTRANS of an access; `user` is the forced user access of R356. -/
def State.dnTrans (s : State) (user : Bool) : Bool := !user && s.privileged

/-- DnM of an access (R356, 62_signals.md R864). -/
def State.dnMode (s : State) (user : Bool) : BitVec 5 := if user then usrMode else s.mode

/-- Does the rule concern this access? -/
def MemRule.covers (r : MemRule) (a : Word) (size : Size) (trans : Bool) (mode : BitVec 5) : Bool :=
  decide (r.lo ≤ a.toNat) && decide (a.toNat ≤ r.hi) && (r.sizes.isEmpty || r.sizes.contains size) &&
    (if trans then r.priv else r.user) && (match r.mode with | none => true | some m => m == mode)

/-- The access is answered with an abort. -/
def MemAnswer.aborts : MemAnswer → Bool
  | .abort _ => true
  | .device | .readOnly => false

/-- What is on DDIN or ID is not what memory holds: an aborted read puts any value there (20_memory.md R162, log 19). -/
def MemAnswer.opens : MemAnswer → Bool
  | .abort _ | .device => true
  | .readOnly => false

/-- A store that is so answered changes memory. -/
def MemAnswer.lands : MemAnswer → Bool
  | .abort lands => lands
  | .device | .readOnly => false

/-- The rule that answers a data access, if any: the memory system sees address, size, direction, DnTRANS and DnM
(62_signals.md R864). -/
def State.dataRule (s : State) (a : Word) (size : Size) (write user : Bool) : Option MemRule :=
  s.sys.rules.find? fun r => MemRule.covers r a size (s.dnTrans user) (s.dnMode user) && (if write then r.onWrite else r.onRead)

/-- DABORT is asserted for the access (20_memory.md R160). -/
def State.dataAborts (s : State) (a : Word) (size : Size) (write user : Bool) : Bool :=
  (s.dataRule a size write user).any fun r => r.answer.aborts

/-- A data access was made: trace, comparators, and the watchpoint latch (61_debug.md R751, R752). DESIGN CHOICE (log 28): an access
at system speed in debug state latches no watchpoint. DESIGN CHOICE (log 44): while a watchpoint is on its way no other is latched, so
one that the instruction X behind the watchpointed W raises by its own access is dropped, and the entry made for W is the only one. -/
def State.accessed (s : State) (e : BusEvent) (w : Word) : State :=
  let p := dataProbe e.addr w e.size e.write e.trans
  let hit := s.pins.dbgen && !s.dbg.inDebug && (s.pins.dewpt || Ice.hit s.ice s.pins p)
  { s with
    bus := e :: s.bus
    port := ⟨some e, false, true, false⟩
    ice := Ice.see s.ice s.pins p
    dbg := { s.dbg with watch := if hit && s.dbg.watch == .idle then .hit else s.dbg.watch } }

/-- A debug-speed transfer changes what the data interface shows and reaches nothing (61_debug.md R760, R763). -/
def State.showed (s : State) (e : BusEvent) : State := { s with port := ⟨some e, false, false, false⟩ }

/-- The transfer of the step before is over: its outputs are retained (20_memory.md R103). -/
def DataPort.retained (p : DataPort) : DataPort := { p with live := false }

/-- The other bus masters act between two accesses of one instruction (20_memory.md R142, D6). -/
def State.othersAct (s : State) : State :=
  match s.sys.others with
  | [] => s
  | ws :: rest =>
    { s with
      mem := Memory.writeAll s.mem (ws.map fun x => (x.1.toNat, x.2))
      sys := { s.sys with others := rest } }

/-- One access less before nRESET strikes (R900). -/
def State.spend (s : State) : State := { s with sys := { s.sys with budget := s.sys.budget.map (· - 1) } }

/-- What a read finds on DDIN: the bus word of memory, or any value where the answer of the memory system opens it. -/
def State.ddin (s : State) (a : Word) (rule : Option MemRule) : Word × State :=
  if rule.any fun r => r.answer.opens then (s.freeWord, s.drawn) else (busWordAt s.pins.bigend s.mem a, s)

/-- `MemRead` (20_memory.md R120): the selected part of the bus word, or none when DABORT is asserted. A debug-speed load takes
the word the debugger scanned in (61_debug.md R760). -/
def State.readData (s : State) (a : Word) (size : Size) (user : Bool) (b : Beat) : Option Word × State :=
  if s.debugSpeed then
    let w := s.dbg.ddIn.headD s.freeWord
    let t := s.showed ⟨a, size, false, w, s.dnTrans user, s.dnMode user, b.lock, false, b.seq, b.more⟩
    (some (lane s.pins.bigend size a w), ({ t with dbg := { t.dbg with ddIn := t.dbg.ddIn.tail } }).drawn)
  else if s.sys.budget = some 0 then (some (lane s.pins.bigend size a s.freeWord), s.drawn)
  else
    let rule := s.dataRule a size false user
    let d := s.ddin a rule
    let bad := rule.any fun r => r.answer.aborts
    let v := lane s.pins.bigend size a d.1
    let s' := d.2.spend.accessed ⟨a, size, false, v, s.dnTrans user, s.dnMode user, b.lock, bad, b.seq, b.more⟩ d.1
    (if bad then none else some v, s')

/-- The address is one that the instruction interface finds in a store of its own (D5). -/
def State.isSplit (s : State) (a : Word) : Bool :=
  s.sys.split.any fun r => decide (r.1 ≤ (a &&& 0xFFFFFFFC#32).toNat) && decide ((a &&& 0xFFFFFFFC#32).toNat ≤ r.2)

/-- The slots that a store of these bytes makes stale: those of the next three instruction slots it writes in (20_memory.md R150,
D7). -/
def State.staleAfter (s : State) (bytes : List (Nat × Byte)) : List Word :=
  [s.pc + s.width, s.pc + s.width + s.width, s.pc + s.width + s.width + s.width].filter fun slot =>
    !s.isSplit slot && bytes.any fun b => decide (slot.toNat ≤ b.1) && decide (b.1 < slot.toNat + s.width.toNat)

/-- Memory after the bytes of a store, and the slots it makes stale. -/
def State.storeMem (s : State) (bytes : List (Nat × Byte)) : State :=
  { s with
    mem := Memory.writeAll s.mem bytes
    pipe := { s.pipe with stale := s.pipe.stale ++ s.staleAfter bytes } }

/-- `MemWrite` (20_memory.md R121): true when DABORT is asserted. `late` says that an earlier word of the same block has
aborted (60_exceptions.md R685). A debug-speed store puts its data in the DD cells (61_debug.md R760). -/
def State.writeData (s : State) (a : Word) (size : Size) (v : Word) (user : Bool) (b : Beat) (late : Bool) : Bool × State :=
  let dd := ddCopies size v
  if s.debugSpeed then
    let t := s.showed ⟨a, size, true, dd, s.dnTrans user, s.dnMode user, b.lock, false, b.seq, b.more⟩
    (false, { t with dbg := { t.dbg with ddOut := s.dbg.ddOut ++ [dd] } })
  else if s.sys.budget = some 0 then (false, s)
  else
    let rule := s.dataRule a size true user
    let bad := rule.any fun r => r.answer.aborts
    let s' := s.spend.accessed ⟨a, size, true, dd, s.dnTrans user, s.dnMode user, b.lock, bad, b.seq, b.more⟩ dd
    let lands := match rule with
      | some r => r.answer.lands
      | none => !late || s.sys.lateStores
    (bad, if lands then s'.storeMem (storeBytes s.pins.bigend size a v) else s')

/-! ## The prefetch queue -/

/-- The instruction bits at `a` that the core takes from ID: the word, or the half that IA[1] selects (20_memory.md R110,
R111). -/
def State.codeOf (s : State) (a id : Word) : Code :=
  if bitT s.cpsr then .thumb ((lane s.pins.bigend .half a id).extractLsb' 0 16) else .arm id

/-- The instructions that may be offered to a coprocessor other than 14 (46_arm_coprocessor.md R460, R470). -/
def offered : Instr → Bool
  | .cdp _ o => o.cp != 14#4
  | .mcr _ o => o.cp != 14#4
  | .mrc _ o => o.cp != 14#4
  | .ldc _ m => m.cp != 14#4
  | .stc _ m => m.cp != 14#4
  | _ => false

/-- The coprocessor instructions, those of coprocessor 14 too (46_arm_coprocessor.md R460). -/
def coprocessorInstr : Instr → Bool
  | .cdp _ _ | .mcr _ _ | .mrc _ _ | .ldc _ _ | .stc _ _ => true
  | _ => false

/-- Would the instruction execute here (00_scope.md R21)? -/
def passes (i : Instr) (s : State) : Bool :=
  match Instr.cond i with
  | some c => conditionPassed c s.cpsr
  | none => true

/-- The coprocessor instruction behind the one that runs, when its condition passes: it has entered execute and the coprocessor
has seen PASS (46_arm_coprocessor.md R478). -/
def State.following (s : State) : Option Instr :=
  match s.pipe.queue with
  | _ :: k :: _ =>
    let i := decodeCode (s.codeOf (s.pc + s.width) k.id)
    if !k.aborted && !k.marked && coprocessorInstr i && passes i s then some i else none
  | _ => none

/-- The coprocessors receive something, oldest first. -/
def State.tell (s : State) (e : CpEvent) : State := { s with cop := { s.cop with log := s.cop.log ++ [e] } }

/-- LATECANCEL: a coprocessor instruction behind one whose data access aborted has been signalled to execute by PASS and is cancelled
(46_arm_coprocessor.md R478). -/
def State.cancelNext (s : State) : State :=
  match s.following with
  | some i => { s.tell (.cancelled i) with pass := true, lateCancel := true }
  | none => s

/-- No instruction executes in this step: INSTREXEC and PASS are LOW, and a coprocessor instruction that was busy-waiting is
abandoned (62_signals.md R867, 46_arm_coprocessor.md R462, R476). -/
def State.noExec (s : State) : State :=
  { (if s.pipe.busyWait then s.tell .abandoned else s) with
    port := s.port.retained
    instrExec := false
    pass := false
    lateCancel := false
    wrote := [] }

/-! ## Exceptions -/

/-- The exceptions other than Reset (60_exceptions.md R660). -/
inductive Exc where
  | undefined | swi | prefetchAbort | dataAbort | irq | fiq
deriving DecidableEq, Repr

/-- The mode an exception enters (R660). -/
def Exc.mode : Exc → BitVec 5
  | .undefined => undMode
  | .swi => svcMode
  | .prefetchAbort => abtMode
  | .dataAbort => abtMode
  | .irq => irqMode
  | .fiq => fiqMode

/-- The number of its vector: the offset divided by 4, and its vector catch bit (R660, R661). -/
def Exc.vector : Exc → Nat
  | .undefined => 1
  | .swi => 2
  | .prefetchAbort => 3
  | .dataAbort => 4
  | .irq => 6
  | .fiq => 7

/-- `vector_base` (R662). -/
def State.vectorBase (s : State) : Word := if s.pins.hivecs then 0xFFFF0000#32 else 0#32

/-- CPSR after entry (R670, R671): the new mode, T clear, I set, F set by FIQ only, the rest kept. -/
def enterCpsr (p : Word) (e : Exc) : Word :=
  p.extractLsb' 8 24 ++ 1#1 ++ bit (maskF p || e == .fiq) ++ 0#1 ++ e.mode

/-- A vector-catch mark on the fetch from vector `k` (61_debug.md R815). -/
def State.catches (s : State) (k : Nat) : Bool := s.pins.dbgen && !s.dbg.inDebug && k != 5 && s.ice.vecCatch.getLsbD k

/-- A watchpoint latched by this instruction or the one before it takes effect right after an exception entry (R754). -/
def WatchStage.afterEntry : WatchStage → WatchStage
  | .hit => .due
  | .armed => .due
  | w => w

/-- Taking an exception with link value `link` (60_exceptions.md R670). -/
def State.raise (s : State) (e : Exc) (link : Word) : State :=
  let old := s.cpsr
  let s1 := (s.setBankReg e.mode 14#4 link).setSpsr e.mode old
  let s2 := (s1.setCpsr (enterCpsr old e)).branchTo (s.vectorBase + BitVec.ofNat 32 (4 * e.vector))
  { s2 with
    pipe := { s2.pipe with caught := s.catches e.vector }
    dbg := { s2.dbg with watch := WatchStage.afterEntry s.dbg.watch } }

/-- The undefined instruction trap: the link is the next instruction (R672, 45_arm_branch_exception.md R445). -/
def State.takeUndefined (s : State) : State := s.raise .undefined (s.pc + s.width)

/-- The software interrupt: the link is the next instruction (R672, R440). -/
def State.takeSwi (s : State) : State := s.raise .swi (s.pc + s.width)

/-- The data abort of the running instruction: the link is its address + 8 in both states (R672, R676), and a coprocessor
instruction behind it is cancelled. -/
def State.takeDataAbort (s : State) : State := s.cancelNext.raise .dataAbort (s.pc + 8#32)

/-- The prefetch abort of the instruction about to run: the link is its address + 4 in both states (R672, R677). -/
def State.takePrefetchAbort (s : State) : State := s.raise .prefetchAbort (s.pc + 4#32)

/-- IRQ before the instruction at `pc`: the link is its address + 4 (R672, R678). -/
def State.takeIrq (s : State) : State := s.raise .irq (s.pc + 4#32)

/-- FIQ before the instruction at `pc` (R672, R679). -/
def State.takeFiq (s : State) : State := s.raise .fiq (s.pc + 4#32)

/-- The address an exception return continues at, by the restored T bit (R700; over R252, log 13). -/
def returnTarget (p : Word) (v : Word) : Word := if bitT p then v &&& 0xFFFFFFFE#32 else v &&& 0xFFFFFFFC#32

/-- Return from exception: the PC and the CPSR together (60_exceptions.md R700). -/
def State.exceptionReturn (s : State) (v : Word) : Result :=
  match s.spsrOf s.mode with
  | none => .refused (.unpredictable .noSpsr)
  | some p =>
    if legalMode (modeOf p) then .next ((s.setCpsr p).branchTo (returnTarget p v))
    else .refused (.unpredictable .illegalMode)

/-- General registers after nRESET (10_state.md R92, R93): R14_svc is unspecified, and so is every register that the interrupted
instruction was writing, whatever it would have written (`written`; R900, U43). `n` is the number of the first of the free values
it draws. -/
def State.resetRegs (s : State) (n : Nat) (written : List Nat) : Vector Word 30 :=
  Vector.ofFn fun i : Fin 30 =>
    if i = bankIndex svcMode 14#4 ∨ i.val ∈ written then Config.freeWord (n + i.val) else s.regs.get i

/-- SPSRs after nRESET: SPSR_svc is unspecified but for its reserved bits, which read zero (R92, R94), and so is an SPSR that
the interrupted instruction was writing. -/
def State.resetSpsrs (s : State) (n : Nat) (written : List Nat) : Vector Word 5 :=
  Vector.ofFn fun i : Fin 5 =>
    if i = 2 ∨ 30 + i.val ∈ written then Config.freeWord (n + 30 + i.val) &&& 0xF00000FF#32
    else s.spsr.get i

/-- No interrupt request is remembered: what a pin did before does not outlive reset or a debug session (10_state.md R78, R163,
log 22). -/
def Pins.forgotten (p : Pins) : Pins := { p with irqPulse := false, fiqPulse := false }

/-- The debug logic's latches cleared, what outlasts debug state kept: SYSCOMP, SYSSPEED and the count of the falls of
DBGACK. DESIGN CHOICE: SYSCOMP, once HIGH, stays so through entry, exit and nRESET (log 28), and SYSSPEED keeps its level through exit and
nRESET (log 29); R60, R756, R783 and R784 say neither what lowers SYSCOMP nor how long SYSSPEED lasts. -/
def Dbg.fresh (d : Dbg) : Dbg :=
  { Dbg.clear with sysComp := d.sysComp, sysspeedBit := d.sysspeedBit, ackFalls := d.ackFalls }

/-- nRESET (60_exceptions.md R673, 10_state.md R91 to R98), striking while an instruction that has written the cells `written`
would lead from `s` to `struck`: Supervisor mode, ARM state, I and F set, the flags unspecified, the PC at the reset vector, out
of debug state (log 14; a run that refuses nRESET there does not come to this, `State.struckBy`, log 45); memory, the debug logic and the
other registers are kept. DESIGN CHOICE (log 14): a watchpoint on its way and an armed or finished single step are dropped,
and (log 46) so is the masking by DBGACK of the fetches still to come after an exit from debug state. -/
def State.takeReset (s struck : State) (written : List Nat) : State :=
  let first := max s.draws struck.draws
  let n := first + 35
  { struck with
    regs := s.resetRegs first written
    spsr := s.resetSpsrs first written
    cpsr := withNZCV 0x000000D3#32 (Config.freeBit n) (Config.freeBit (n + 1)) (Config.freeBit (n + 2)) (Config.freeBit (n + 3))
    pc := s.vectorBase
    pins := s.pins.forgotten
    pipe := { Pipe.clear with caught := s.pins.dbgen && s.ice.vecCatch.getLsbD 0 }
    sys := { struck.sys with budget := none }
    cop := if struck.pipe.busyWait then { struck.cop with log := struck.cop.log ++ [.abandoned] } else struck.cop
    port := struck.port.retained
    dbg := s.dbg.fresh
    instrExec := false
    pass := false
    lateCancel := false
    wrote := []
    draws := n + 4 }

/-! ## What every meaning begins with -/

/-- An ARM instruction (00_scope.md R21): cond 0b1111 is refused, a failed condition only advances the PC, an UNPREDICTABLE
encoding is refused, and otherwise the body runs. INSTREXEC is HIGH where the condition passed, for a coprocessor instruction that
only busy-waits too (DESIGN CHOICE, log 37). -/
def armGuard (c : Cond) (i : Instr) (s : State) (body : State → Result) : Result :=
  if c = .nv then .refused (.unpredictable .condNever)
  else if conditionPassed c s.cpsr = false then .next (s.executed false).advance
  else match firstDefect (Instr.checks i) with
    | some d => .refused (.unpredictable d)
    | none => body (s.executed true)

/-- A Thumb instruction always executes (47_thumb_data.md R520). -/
def thumbGuard (i : Instr) (s : State) (body : State → Result) : Result :=
  match firstDefect (Instr.checks i) with
  | some d => .refused (.unpredictable d)
  | none => body (s.executed true)

end Sys2Proof.Machine
end

