-- ==== Sys2Proof/Machine/Operands.lean ====
section
/-!
DEFINITION. Every operand form: the shifter operand and its carry (40_arm_data_processing.md R255 to R260), the addresses of
addressing modes 2 and 3 (43_arm_load_store.md R340 to R342), of block transfers (44_arm_load_store_multiple_swap.md R390) and of
coprocessor transfers (46_arm_coprocessor.md R483), and register lists.
-/

namespace Sys2Proof.Machine

/-- A shifter operand with its carry. -/
structure Shifted where
  val : Word
  carry : Bool
deriving DecidableEq, Repr

/-- A register shifted by an immediate, `c` the C flag before (R256 to R259): an amount of 0 means 32 for LSR and ASR and RRX
for ROR. -/
def shiftByImm (ty : ShiftType) (m : Word) (n : Nat) (c : Bool) : Shifted :=
  match ty with
  | .lsl => if n = 0 then ⟨m, c⟩ else ⟨m <<< n, m.getLsbD (32 - n)⟩
  | .lsr => if n = 0 then ⟨0, m.getLsbD 31⟩ else ⟨m >>> n, m.getLsbD (n - 1)⟩
  | .asr => if n = 0 then ⟨m.sshiftRight 31, m.getLsbD 31⟩ else ⟨m.sshiftRight n, m.getLsbD (n - 1)⟩
  | .ror => if n = 0 then ⟨bit c ++ m.extractLsb' 1 31, m.getLsbD 0⟩ else ⟨m.rotateRight n, m.getLsbD (n - 1)⟩

/-- A register shifted by a register amount, 0 to 255 (R260). -/
def shiftByReg (ty : ShiftType) (m : Word) (n : Nat) (c : Bool) : Shifted :=
  if n = 0 then ⟨m, c⟩
  else match ty with
    | .lsl => if n < 32 then ⟨m <<< n, m.getLsbD (32 - n)⟩ else if n = 32 then ⟨0, m.getLsbD 0⟩ else ⟨0, false⟩
    | .lsr => if n < 32 then ⟨m >>> n, m.getLsbD (n - 1)⟩ else if n = 32 then ⟨0, m.getLsbD 31⟩ else ⟨0, false⟩
    | .asr => if n < 32 then ⟨m.sshiftRight n, m.getLsbD (n - 1)⟩ else ⟨m.sshiftRight 31, m.getLsbD 31⟩
    | .ror => if n % 32 = 0 then ⟨m, m.getLsbD 31⟩ else ⟨m.rotateRight (n % 32), m.getLsbD (n % 32 - 1)⟩

/-- The value of a rotated immediate: `ROR(zext_8(imm8), 2 * rotate)` (30_encoding.md R176). -/
def RotImm.value (o : RotImm) : Word := (o.imm8.setWidth 32).rotateRight (2 * o.rot.toNat)

/-- Immediate operand 2 (R255). -/
def op2Imm (s : State) (o : RotImm) : Shifted :=
  ⟨RotImm.value o, if o.rot = 0#4 then flagC s.cpsr else (RotImm.value o).getLsbD 31⟩

/-- Operand 2, register shifted by an immediate (R256 to R259). -/
def op2ShiftImm (s : State) (o : ShiftImm) : Shifted := shiftByImm o.ty (s.reg o.rm) o.amount.toNat (flagC s.cpsr)

/-- Operand 2, register shifted by the low byte of a register (R260). -/
def op2ShiftReg (s : State) (o : ShiftReg) : Shifted :=
  shiftByReg o.ty (s.reg o.rm) ((s.reg o.rs).extractLsb' 0 8).toNat (flagC s.cpsr)

/-- Base plus or minus offset by bit U (R342). -/
def offsetBy (u : Bool) (base off : Word) : Word := if u then base + off else base - off

/-- The address of a transfer: the target when pre-indexed or offset, the base when post-indexed (R342). -/
def Mode2.address (a : Mode2) (base target : Word) : Word :=
  match a.idx with
  | .post => base
  | _ => target

/-- The offset of addressing mode 2 from an immediate (R340). -/
def imm12Offset (imm : BitVec 12) : Word := imm.setWidth 32

/-- The offset of addressing mode 2 from a shifted register (R340). -/
def shiftedOffset (s : State) (o : ShiftImm) : Word := (op2ShiftImm s o).val

/-- The offset of addressing mode 3 (R341). -/
def Mode3.offset (s : State) (m : Mode3) : Word := if m.i then (m.hi ++ m.lo).setWidth 32 else s.reg m.lo

/-- The target of addressing mode 3 (R342). -/
def Mode3.target (s : State) (m : Mode3) : Word := offsetBy m.u (s.reg m.rn) (Mode3.offset s m)

/-- The address of addressing mode 3 (R342). -/
def Mode3.address (s : State) (m : Mode3) : Word := if m.p then Mode3.target s m else s.reg m.rn

/-- Write-back of addressing mode 3: post-indexed always, pre-indexed when W = 1 (R342). -/
def Mode3.wb (m : Mode3) : Bool := !m.p || m.w

/-- The target of a coprocessor transfer (R483). -/
def CopMem.target (s : State) (m : CopMem) : Word := offsetBy m.u (s.reg m.rn) ((m.off ++ 0#2).setWidth 32)

/-- The first address of a coprocessor transfer (R483). -/
def CopMem.address (s : State) (m : CopMem) : Word := if m.p then CopMem.target s m else s.reg m.rn

/-- The registers of a list, lowest first (44_arm_load_store_multiple_swap.md R390). -/
def regList {n : Nat} (list : BitVec n) : List Reg :=
  ((List.range 16).filter fun k => list.getLsbD k).map fun k => BitVec.ofNat 4 k

/-- `start` of R390 for `n` registers. -/
def blockStart (p u : Bool) (base : Word) (n : Nat) : Word :=
  let len := BitVec.ofNat 32 (4 * n)
  match p, u with
  | false, true => base
  | true, true => base + 4#32
  | false, false => base - len + 4#32
  | true, false => base - len

/-- The written-back value of R390 for `n` registers. -/
def blockEnd (u : Bool) (base : Word) (n : Nat) : Word := offsetBy u base (BitVec.ofNat 32 (4 * n))

/-- The k-th address of a run of words: bits 1:0 are ignored by the memory system (20_memory.md R133). -/
def wordAddr (start : Word) (k : Nat) : Word := (start + BitVec.ofNat 32 (4 * k)) &&& 0xFFFFFFFC#32

/-- Rotation of an unaligned word (20_memory.md R130). -/
def rotateWord (a w : Word) : Word := w.rotateRight (8 * (a.extractLsb' 0 2).toNat)

end Sys2Proof.Machine
end

