-- ==== Sys2Proof/Machine/Transfer.lean ====
section
/-!
DEFINITION. The shared bodies of the instructions that access memory: single transfers (43_arm_load_store.md,
48_thumb_memory_branch.md formats 6 to 11), swap and block transfers (44_arm_load_store_multiple_swap.md, Thumb formats 14 and 15).
-/

namespace Sys2Proof.Machine

/-- What a load does with the bus value (R346, R347, R360 to R362). -/
inductive LoadKind where
  | word | byte | half | sbyte | shalf
deriving DecidableEq, Repr

/-- The width of a load (20_memory.md R140). -/
def LoadKind.size : LoadKind → Size
  | .word => .word
  | .byte | .sbyte => .byte
  | .half | .shalf => .half

/-- The register value from the value read at `a` (R130, R346, R347, R360 to R362). -/
def LoadKind.value (k : LoadKind) (a w : Word) : Word :=
  match k with
  | .word => rotateWord a w
  | .byte | .half => w
  | .sbyte => (w.extractLsb' 0 8).signExtend 32
  | .shalf => (w.extractLsb' 0 16).signExtend 32

/-- The base write-back of a transfer that completed (R342, R343). -/
def State.writeBack (s : State) : Option (Reg × Word) → State
  | none => s
  | some (r, v) => s.setReg r v

/-- A halfword transfer at an odd address (20_memory.md R132, U10). -/
def oddHalf (size : Size) (a : Word) : Bool := size == .half && a.getLsbD 0

/-- A single-register load (R343, R344, R346): the aborted load writes nothing. DESIGN CHOICE (log 25): an LDR of R15 scanned in at debug
speed sets the debug-state PC to the loaded word, with no addresses added, so that R15 then reads it + 8. -/
def loadOp (k : LoadKind) (a : Word) (user : Bool) (wb : Option (Reg × Word)) (rd : Reg) (s : State) : Result :=
  if oddHalf k.size a then .refused (.unpredictable .halfUnaligned)
  else if rd = 15#4 ∧ a.extractLsb' 0 2 ≠ 0#2 then .refused (.unpredictable .ldrPcUnaligned)
  else match s.readData a k.size user .single with
    | (none, t) => .next t.takeDataAbort
    | (some w, t) =>
      let v := k.value a w
      if rd = 15#4 then .next ((t.writeBack wb).branchTo (v &&& 0xFFFFFFFC#32))
      else .next ((t.writeBack wb).setReg rd v).advance

/-- A single-register store (R343, R344, R348). -/
def storeOp (size : Size) (a v : Word) (user : Bool) (wb : Option (Reg × Word)) (s : State) : Result :=
  if oddHalf size a then .refused (.unpredictable .halfUnaligned)
  else match s.writeData a size v user .single false with
    | (true, t) => .next t.takeDataAbort
    | (false, t) => .next (t.writeBack wb).advance

/-- The write-back of an addressing mode 2 transfer (R342). -/
def Mode2.writeBack (a : Mode2) (target : Word) : Option (Reg × Word) := if Mode2.wb a then some (a.rn, target) else none

/-- A mode 2 load with offset `off` (R342, R346, R347). -/
def load2 (k : LoadKind) (a : Mode2) (off : Word) (s : State) : Result :=
  let target := offsetBy a.u (s.reg a.rn) off
  loadOp k (Mode2.address a (s.reg a.rn) target) false (Mode2.writeBack a target) a.rd s

/-- A mode 2 store with offset `off` (R342, R348, R349). -/
def store2 (size : Size) (a : Mode2) (off : Word) (s : State) : Result :=
  let target := offsetBy a.u (s.reg a.rn) off
  storeOp size (Mode2.address a (s.reg a.rn) target) (s.storedReg a.rd) false (Mode2.writeBack a target) s

/-- A user-access load: post-indexed, write-back always (R350, R351). -/
def loadUser (k : LoadKind) (u : Bool) (rn rd : Reg) (off : Word) (s : State) : Result :=
  loadOp k (s.reg rn) true (some (rn, offsetBy u (s.reg rn) off)) rd s

/-- A user-access store (R352, R353). -/
def storeUser (size : Size) (u : Bool) (rn rd : Reg) (off : Word) (s : State) : Result :=
  storeOp size (s.reg rn) (s.storedReg rd) true (some (rn, offsetBy u (s.reg rn) off)) s

/-- The write-back of an addressing mode 3 transfer (R342). -/
def Mode3.writeBack (s : State) (m : Mode3) : Option (Reg × Word) :=
  if Mode3.wb m then some (m.rn, Mode3.target s m) else none

/-- A mode 3 load (R360 to R362). -/
def load3 (k : LoadKind) (m : Mode3) (s : State) : Result :=
  loadOp k (Mode3.address s m) false (Mode3.writeBack s m) m.rd s

/-- A mode 3 store (R363). -/
def store3 (m : Mode3) (s : State) : Result :=
  storeOp .half (Mode3.address s m) (s.storedReg m.rd) false (Mode3.writeBack s m) s

/-- Is this a Thumb word access that the spec refuses: at an address that is not word aligned (48_thumb_memory_branch.md R591, U11; log
45)? DEDUCED (log 11): at debug speed no access is made, and the base may be any value (61_debug.md R760, R774). -/
def State.refusesWord (s : State) (a : Word) : Bool := s.pins.strict && !s.debugSpeed && a.extractLsb' 0 2 != 0#2

/-- A Thumb word load: from an address that is not word aligned it is refused (R591), or the data is free (log 11, log 45), at debug speed
too. -/
def thumbLoadWord (a : Word) (rd : LowReg) (s : State) : Result :=
  if s.refusesWord a then .refused (.unpredictable .wordUnaligned)
  else match s.readData a .word false .single with
  | (none, t) => .next t.takeDataAbort
  | (some w, t) =>
    if a.extractLsb' 0 2 = 0#2 then .next (t.setReg (lowReg rd) w).advance
    else .next (t.drawn.setReg (lowReg rd) t.freeWord).advance

/-- A Thumb word store: to an address that is not word aligned it is refused (R591), or the data is free (log 11, log 45). At debug
speed the register goes to the DD cells whatever the address is (R760, R774). -/
def thumbStoreWord (a : Word) (rd : LowReg) (s : State) : Result :=
  if s.refusesWord a then .refused (.unpredictable .wordUnaligned)
  else if a.extractLsb' 0 2 = 0#2 ∨ s.debugSpeed = true then storeOp .word a (s.reg (lowReg rd)) false none s
  else storeOp .word a s.freeWord false none s.drawn

/-- Between the two accesses of a swap another master may act only where the memory controller does not honour DLOCK (20_memory.md
R142). -/
def State.swapGap (s : State) : State := if s.sys.locks then s else s.othersAct

/-- SWP and SWPB: a locked read and a locked write of one address (R420, R421). -/
def swapOp (k : LoadKind) (rn rd rm : Reg) (s : State) : Result :=
  let a := s.reg rn
  match s.readData a k.size false .locked with
  | (none, t) => .next t.takeDataAbort
  | (some w, t) =>
    match t.swapGap.writeData a k.size (s.reg rm) false .locked false with
    | (true, u) => .next u.takeDataAbort
    | (false, u) => .next (u.setReg rd (k.value a w)).advance

/-! ## Block transfers -/

/-- Between two words of a block the other bus masters may act (20_memory.md R142). -/
def State.between {α : Type} (s : State) (rest : List α) : State := if rest.isEmpty then s else s.othersAct

/-- Read words at consecutive addresses, lowest first; an aborted one gives none, and the rest are still read (R393) unless the
abort cancels them (62_signals.md R882, log 18). Every word but the first is sequential (`seq`), and
DMORE is HIGH with every word but the last (20_memory.md R103, R106). -/
def readRun : Bool → List Word → State → List (Option Word) × State
  | _, [], s => ([], s)
  | seq, a :: rest, s =>
    let x := s.readData a .word false ⟨false, seq, !rest.isEmpty⟩
    if x.1.isNone && x.2.sys.cancels then (x.1 :: rest.map fun _ => none, x.2)
    else
      let y := readRun true rest (x.2.between rest)
      (x.1 :: y.1, y.2)

/-- The words of a block. -/
def readWords (as : List Word) (s : State) : List (Option Word) × State := readRun false as s

/-- Write words at consecutive addresses; true when any of them aborted (R393, 60_exceptions.md R685, 62_signals.md
R882). `seq` as for reads. -/
def writeRun : Bool → Bool → List (Word × Word) → State → Bool × State
  | _, late, [], s => (late, s)
  | seq, late, (a, v) :: rest, s =>
    let x := s.writeData a .word v false ⟨false, seq, !rest.isEmpty⟩ late
    if x.1 && x.2.sys.cancels then (true, x.2) else writeRun true (late || x.1) rest (x.2.between rest)

/-- The words of a block, none of them aborted yet. -/
def writeWords (xs : List (Word × Word)) (s : State) : Bool × State := writeRun false false xs s

/-- All the words, when none aborted. -/
def allWords : List (Option Word) → Option (List Word)
  | [] => some []
  | none :: _ => none
  | some w :: rest => (allWords rest).map (w :: ·)

/-- The addresses of `n` words from `start` (R390, R133). -/
def blockAddrs (start : Word) (n : Nat) : List Word := (List.range n).map fun k => wordAddr start k

/-- Load registers of the bank of mode `m`; R15 is not written here. -/
def loadRegs (m : BitVec 5) : List (Reg × Word) → State → State
  | [], s => s
  | (r, v) :: rest, s => loadRegs m rest (s.setBankReg m r v)

/-- After an aborted block load every listed register but the base and the PC is free (R684, U44). -/
def freeRegs (m : BitVec 5) (base : Fin 30) : List Reg → State → State
  | [], s => s
  | r :: rest, s =>
    if r = 15#4 ∨ bankIndex m r = base then freeRegs m base rest s
    else freeRegs m base rest ((s.setBankReg m r s.freeWord).drawn)

/-- The word loaded for R15: the last of the block. -/
def pcWord (vs : List Word) : Word := vs.getLastD 0#32

/-- A block load into the bank of mode `m` (R395, R398, R400): the base is written back when `wb` is a value, and what
follows is decided by `fin` on the word loaded last. -/
def blockLoad (m : BitVec 5) (rl : List Reg) (start : Word) (rn : Reg) (wb : Option Word) (s : State)
    (fin : Word → State → Result) : Result :=
  let x := readWords (blockAddrs start rl.length) s
  match allWords x.1 with
  | none => .next (freeRegs m (bankIndex s.mode rn) rl x.2).takeDataAbort
  | some vs => fin (pcWord vs) ((loadRegs m (rl.zip vs) x.2).writeBack (wb.map fun v => (rn, v)))

/-- A block store of words (R397, R399): `vals` are taken before anything is written. -/
def blockStore (start : Word) (vals : List Word) (rn : Reg) (wb : Option Word) (s : State) : Result :=
  match writeWords ((blockAddrs start vals.length).zip vals) s with
  | (true, t) => .next t.takeDataAbort
  | (false, t) => .next (t.writeBack (wb.map fun v => (rn, v))).advance

/-- LDM (1) (R395). -/
def ldmPlain (p u w : Bool) (rn : Reg) (list : BitVec 16) (s : State) : Result :=
  let rl := regList list
  let wb := if w then some (blockEnd u (s.reg rn) rl.length) else none
  blockLoad s.mode rl (blockStart p u (s.reg rn) rl.length) rn wb s fun v t =>
    if list.getLsbD 15 then .next (t.branchTo (v &&& 0xFFFFFFFC#32)) else .next t.advance

/-- LDM (3): the PC and the CPSR are restored together (R400); where the mode has no SPSR it is UNPREDICTABLE and makes no
access. -/
def ldmReturn (p u w : Bool) (rn : Reg) (list : BitVec 15) (s : State) : Result :=
  let rl := regList (1#1 ++ list)
  let wb := if w then some (blockEnd u (s.reg rn) rl.length) else none
  match s.spsrOf s.mode with
  | none => .refused (.unpredictable .noSpsr)
  | some _ => blockLoad s.mode rl (blockStart p u (s.reg rn) rl.length) rn wb s fun v t => t.exceptionReturn v

/-- Has the mode a bank of its own (R398, R399)? -/
def hasUserForm (m : BitVec 5) : Bool := m != usrMode && m != sysMode

/-- The next instruction must not name a banked register (70_reset_and_hazards.md R921). -/
def State.afterUserBank (s : State) : State := { s with pipe := { s.pipe with userBank := true } }

/-- LDM (2): the User bank (R398). -/
def ldmUser (p u : Bool) (rn : Reg) (list : BitVec 15) (s : State) : Result :=
  let rl := regList list
  if hasUserForm s.mode then
    blockLoad usrMode rl (blockStart p u (s.reg rn) rl.length) rn none s fun _ t => .next t.advance.afterUserBank
  else .refused (.unpredictable .noUserBank)

/-- STM (1) (R397). -/
def stmPlain (p u w : Bool) (rn : Reg) (list : BitVec 16) (s : State) : Result :=
  let rl := regList list
  let wb := if w then some (blockEnd u (s.reg rn) rl.length) else none
  blockStore (blockStart p u (s.reg rn) rl.length) (rl.map s.storedReg) rn wb s

/-- STM (2): the User bank (R399). -/
def stmUser (p u : Bool) (rn : Reg) (list : BitVec 16) (s : State) : Result :=
  let rl := regList list
  let v := fun r => if r = 15#4 then s.pcStored else s.bankReg usrMode r
  if hasUserForm s.mode then
    match writeWords ((blockAddrs (blockStart p u (s.reg rn) rl.length) rl.length).zip (rl.map v)) s with
    | (true, t) => .next t.takeDataAbort
    | (false, t) => .next t.advance.afterUserBank
  else .refused (.unpredictable .noUserBank)

/-- PUSH (48_thumb_memory_branch.md R620). -/
def pushOp (lr : Bool) (list : BitVec 8) (s : State) : Result :=
  let rl := regList list ++ (if lr then [14#4] else [])
  let start := s.reg 13#4 - BitVec.ofNat 32 (4 * rl.length)
  blockStore start (rl.map s.reg) 13#4 (some start) s

/-- POP (R621): a loaded PC stays in Thumb state. -/
def popOp (pc : Bool) (list : BitVec 8) (s : State) : Result :=
  let rl := regList list ++ (if pc then [15#4] else [])
  let base := s.reg 13#4
  blockLoad s.mode rl base 13#4 (some (base + BitVec.ofNat 32 (4 * rl.length))) s fun v t =>
    if pc then .next (t.branchTo (v &&& 0xFFFFFFFE#32)) else .next t.advance

/-- Is the base in the list of a Thumb STMIA, and not its lowest register (R222, R629)? -/
def baseNotLowest (rb : LowReg) (list : BitVec 8) : Bool := inList list (lowReg rb) && belowInList list (lowReg rb)

/-- What Thumb STMIA stores for a register: a free value for the base when it is in the list and not the lowest (R629,
log 12). -/
def stmiaValue (rb : LowReg) (list : BitVec 8) (s : State) (r : Reg) : Word :=
  if r = lowReg rb ∧ belowInList list r = true then s.freeWord else s.reg r

/-- STMIA (R629): with the base in the list and not the lowest it is refused (R222, U2), or one value is free (log 12, log 45). -/
def stmiaOp (rb : LowReg) (list : BitVec 8) (s : State) : Result :=
  let rl := regList list
  let base := s.reg (lowReg rb)
  if s.pins.strict && baseNotLowest rb list then .refused (.unpredictable .baseInList)
  else blockStore base (rl.map (stmiaValue rb list s)) (lowReg rb) (some (base + BitVec.ofNat 32 (4 * rl.length))) s.drawn

/-- LDMIA (R630): a base in the list takes the loaded value. -/
def ldmiaOp (rb : LowReg) (list : BitVec 8) (s : State) : Result :=
  let rl := regList list
  let base := s.reg (lowReg rb)
  let wb := if inList list (lowReg rb) then none else some (base + BitVec.ofNat 32 (4 * rl.length))
  blockLoad s.mode rl base (lowReg rb) wb s fun _ t => .next t.advance

end Sys2Proof.Machine
end

