-- ==== Sys2Proof/Machine/Block.lean ====
section
/-!
DEFINITION. The meanings of ARM block transfers (44_arm_load_store_multiple_swap.md): one definition per row, over the shared bodies.
-/

namespace Sys2Proof.Machine

/-- STM, row 86 of the opcode table (R397). -/
def execStm1 (c : Cond) (p : Bool) (u : Bool) (w : Bool) (rn : Reg) (list : BitVec 16) (st : State) : Result :=
  armGuard c (.stm1 c p u w rn list) st fun t =>
    stmPlain p u w rn list t

/-- LDM, row 87 of the opcode table (R395). -/
def execLdm1 (c : Cond) (p : Bool) (u : Bool) (w : Bool) (rn : Reg) (list : BitVec 16) (st : State) : Result :=
  armGuard c (.ldm1 c p u w rn list) st fun t =>
    ldmPlain p u w rn list t

/-- STM, row 88 of the opcode table (R399). -/
def execStm2 (c : Cond) (p : Bool) (u : Bool) (w : Bool) (rn : Reg) (list : BitVec 16) (st : State) : Result :=
  armGuard c (.stm2 c p u w rn list) st fun t =>
    stmUser p u rn list t

/-- LDM, row 89 of the opcode table (R398). -/
def execLdm2 (c : Cond) (p : Bool) (u : Bool) (w : Bool) (rn : Reg) (list : BitVec 15) (st : State) : Result :=
  armGuard c (.ldm2 c p u w rn list) st fun t =>
    ldmUser p u rn list t

/-- LDM, row 90 of the opcode table (R400). -/
def execLdm3 (c : Cond) (p : Bool) (u : Bool) (w : Bool) (rn : Reg) (list : BitVec 15) (st : State) : Result :=
  armGuard c (.ldm3 c p u w rn list) st fun t =>
    ldmReturn p u w rn list t

end Sys2Proof.Machine
end

