-- ==== Sys2Proof/Machine/Control.lean ====
section
/-!
DEFINITION. The shared bodies of branches (45_arm_branch_exception.md, 48_thumb_memory_branch.md), of the exception-generating
instructions, and of the coprocessor instructions (46_arm_coprocessor.md).
-/

namespace Sys2Proof.Machine

/-- A PSR with another T bit. -/
def withT (p : Word) (t : Bool) : Word := p.extractLsb' 6 26 ++ bit t ++ p.extractLsb' 0 5

/-- Branch offset of ARM B and BL (R185). -/
def armOffset (off : BitVec 24) : Word := (off ++ 0#2).signExtend 32

/-- B (R431). -/
def branchOp (off : BitVec 24) (s : State) : Result := .next (s.branchTo (s.pcOperand + armOffset off))

/-- BL (R432). DESIGN CHOICE (log 25): scanned in at debug speed it links the PC of debug state + 4, which is the R15 operand less 4. -/
def branchLinkOp (off : BitVec 24) (s : State) : Result :=
  .next ((s.setReg 14#4 (s.pc + 4#32)).branchTo (s.pcOperand + armOffset off))

/-- BX in either state (R436, R612). -/
def exchangeOp (v : Word) (s : State) : Result :=
  if v.extractLsb' 0 2 = 0b10#2 then .refused (.unpredictable .bxUnaligned)
  else .next ((s.setCpsr (withT s.cpsr (v.getLsbD 0))).branchTo (v &&& 0xFFFFFFFE#32))

/-- Thumb B (R638) and a taken conditional branch (R634): an offset in halfwords. -/
def thumbBranchOp {n : Nat} (off : BitVec n) (s : State) : Result :=
  .next (s.branchTo (s.pcOperand + (off ++ 0#1).signExtend 32))

/-- B<cond> (R634): the only conditional Thumb instruction. -/
def thumbCondBranchOp (c : Cond) (off : BitVec 8) (s : State) : Result :=
  if conditionPassed c s.cpsr then thumbBranchOp off s else .next (s.executed false).advance

/-- First half of BL (R640). -/
def blFirstOp (off : BitVec 11) (s : State) : Result :=
  .next (s.setReg 14#4 (s.pcOperand + (off ++ 0#12).signExtend 32)).advance

/-- Second half of BL (R641): the target is computed from the old R14; IA has no bit 0 (10_state.md R46, log 39). -/
def blSecondOp (off : BitVec 11) (s : State) : Result :=
  .next ((s.setReg 14#4 ((s.pc + 2#32) ||| 1#32)).branchTo
    ((s.reg 14#4 + (off ++ 0#1).setWidth 32) &&& 0xFFFFFFFE#32))

/-- An UNDEFINED instruction (R445). -/
def undefinedOp (s : State) : Result := .next s.takeUndefined

/-- SWI (R440, R636): the comment field is ignored. -/
def swiOp (s : State) : Result := .next s.takeSwi

/-! ## Coprocessors -/

/-- The coprocessors have answered: the reply is used up. -/
def State.answered (s : State) (rest : List CpReply) : State := { s with cop := { s.cop with replies := rest } }

/-- PASS is HIGH: a coprocessor instruction whose condition passed is in execute (R462). -/
def State.passed (s : State) : State := { s with pass := true }

/-- The core waits in the busy-wait loop: nothing architectural changes (R473). -/
def State.waiting (s : State) : State := { s with pipe := { s.pipe with busyWait := true } }

/-- The handshake of one execute step (R470 to R475): ABSENT traps, WAIT keeps the instruction in execute, acceptance goes on
with the number of GO answers and the words supplied. DESIGN CHOICE (log 20): GO before LAST is accepted for CDP, MCR and MRC too, where
R471 gives only LAST, and counts for nothing. DESIGN CHOICE (log 43): the InTRANS level handed over with the instruction (R479) is that of the
mode it executes in, also behind an MSR that has changed the mode since its fetch. -/
def handshake (i : Instr) (s : State) (go : Nat → List Word → State → Result) : Result :=
  match s.cop.replies with
  | [] => .next s.passed.takeUndefined
  | .absent :: rest => .next (s.passed.answered rest).takeUndefined
  | .wait :: rest => .next (s.passed.answered rest).waiting
  | .stall :: _ => .next s.passed.waiting
  | .accept n data :: rest => go n data ((s.passed.answered rest).tell (.instr i s.privileged))

/-- The state that a combination of handshake bits stands for (R464). -/
def Chs.ofBits (b : BitVec 2) : Chs :=
  match b.getLsbD 1, b.getLsbD 0 with
  | true, false => .absent
  | false, false => .wait
  | false, true => .go
  | true, true => .last

/-- What the core sees of several coprocessors: bit 1 ANDed, bit 0 ORed; with none attached the tie-off ABSENT (R464, R465). -/
def Chs.combine (bs : List (BitVec 2)) : Chs :=
  Chs.ofBits (bit (bs.all fun b => b.getLsbD 1) ++ bit (bs.any fun b => b.getLsbD 0))

/-- The answers that a sequence of handshake cycles gives (R471): every WAIT is one, and ABSENT, or GO^k LAST, is one. A sequence
that ends in WAIT gives its waits; GO with no LAST after it gives nothing more. -/
def CpReply.ofCodes (data : List Word) : Nat → List Chs → List CpReply
  | _, [] => []
  | 0, .wait :: rest => .wait :: CpReply.ofCodes data 0 rest
  | _ + 1, .wait :: _ => []
  | k, .go :: rest => CpReply.ofCodes data (k + 1) rest
  | k, .last :: _ => [.accept k data]
  | 0, .absent :: _ => [.absent]
  | _ + 1, .absent :: _ => []

/-- CDP (R480). -/
def cdpOp (i : Instr) (o : CopData) (s : State) : Result :=
  if o.cp = 14#4 then .refused .cp14Undescribed else handshake i s fun _ _ t => .next t.advance

/-- The registers of coprocessor 14 by number, when the other fields are those of R490. -/
def cp14Reg (o : CopReg) : Option Bool :=
  if o.op1 = 0#3 ∧ o.op2 = 0#3 ∧ o.crm = 0#4 then
    if o.crn = 0#4 then some false else if o.crn = 1#4 then some true else none
  else none

/-- A word moved to an ARM register, or its top bits to the flags for Rd = 15 (R482). -/
def State.movedToArm (s : State) (rd : Reg) (v : Word) : State :=
  if rd = 15#4 then
    s.setCpsr (withNZCV s.cpsr (v.getLsbD 31) (v.getLsbD 30) (v.getLsbD 29) (v.getLsbD 28))
  else s.setReg rd v

/-- The processor writes the comms data write register and sets W, which it sees at once (R492); while nTRST is LOW W stays clear
(61_debug.md R744). -/
def State.commsPut (s : State) (v : Word) : State :=
  { s with ice := { s.ice with commsWrite := v, wBit := !s.pins.ntrstLow, wCore := !s.pins.ntrstLow } }

/-- The processor has read the comms data read register (R493). -/
def State.commsTaken (s : State) : State := { s with ice := { s.ice with rBit := false, rCore := false } }

/-- A coprocessor transfer of word `v`: the data interface shows its direction and that it is a word, and DD carries it when the core
sends it (R481, 20_memory.md R103). Nothing is on DA but what coprocessor 15 has asked for there (R488); else DA is free. -/
def State.copTransfer (s : State) (onDa : Option Word) (write : Bool) (v : Word) : State :=
  { s with
    port := ⟨some ⟨onDa.getD s.freeWord, .word, write, v, s.dnTrans false, s.dnMode false, false, false, false, false⟩, true, true,
      onDa.isSome⟩
    draws := s.draws + 1 }

/-- MCR (R481, R488); coprocessor 14 by the core itself (R490, R492, D17). -/
def mcrOp (i : Instr) (o : CopReg) (s : State) : Result :=
  if o.cp = 14#4 then
    if cp14Reg o = some true then .next ((s.passed.commsPut (s.reg o.rd)).copTransfer none true (s.reg o.rd)).advance
    else .refused .cp14Undescribed
  else handshake i s fun n _ t =>
    let onDa := if o.cp = 15#4 ∧ n ≠ 0 then some (s.reg o.rd) else none
    .next ((t.tell (.moved (s.reg o.rd))).copTransfer onDa true (s.reg o.rd)).advance

/-- MRC (R482); coprocessor 14 by the core itself (R491, R493, D17). Bits 27:2 of the comms control register are free (U32). -/
def mrcOp (i : Instr) (o : CopReg) (s : State) : Result :=
  if o.cp = 14#4 then
    match cp14Reg o with
    | some false =>
      let v := commsControl s s.ice.wCore s.ice.rCore
      .next ((s.passed.drawn.copTransfer none false v).movedToArm o.rd v).advance
    | some true => .next ((s.passed.commsTaken.copTransfer none false s.ice.commsRead).movedToArm o.rd s.ice.commsRead).advance
    | none => .refused .cp14Undescribed
  else handshake i s fun _ data t =>
    match data with
    | v :: _ => .next ((t.copTransfer none false v).movedToArm o.rd v).advance
    | [] => .next ((t.drawn.copTransfer none false t.freeWord).movedToArm o.rd t.freeWord).advance

/-- The write-back of LDC and STC (R483). -/
def CopMem.writeBack (s : State) (m : CopMem) : Option (Reg × Word) := if m.w then some (m.rn, CopMem.target s m) else none

/-- How many of `n` accesses are still made before nRESET strikes (70_reset_and_hazards.md R900). -/
def State.accessesLeft (s : State) (n : Nat) : Nat :=
  match s.sys.budget with
  | some k => min k n
  | none => n

/-- The words of an LDC reach the coprocessor up to the one that aborted (R484, R486). -/
def State.tellWords : List (Option Word) → State → State
  | some w :: rest, s => State.tellWords rest (s.tell (.loaded w))
  | _, s => s

/-- LDC (R484, R486). -/
def ldcOp (i : Instr) (m : CopMem) (s : State) : Result :=
  if m.cp = 14#4 then .refused .cp14Undescribed
  else handshake i s fun n _ t =>
    let x := readWords (blockAddrs (CopMem.address s m) (n + 1)) t
    let u := State.tellWords (x.1.take (t.accessesLeft (n + 1))) x.2
    match allWords x.1 with
    | none => .next u.takeDataAbort
    | some _ => .next (u.writeBack (CopMem.writeBack s m)).advance

/-- The words a coprocessor supplies for an STC; what it does not drive is free. -/
def stcWords (first : Nat) : Nat → List Word → List Word
  | 0, _ => []
  | n + 1, w :: rest => w :: stcWords first n rest
  | n + 1, [] => Config.freeWord (first + n) :: stcWords first n []

/-- STC (R485, R486). -/
def stcOp (i : Instr) (m : CopMem) (s : State) : Result :=
  if m.cp = 14#4 then .refused .cp14Undescribed
  else handshake i s fun n data t =>
    let vals := stcWords t.draws (n + 1) data
    let t' := { t with draws := t.draws + (n + 1) }
    match writeWords ((blockAddrs (CopMem.address s m) (n + 1)).zip vals) t' with
    | (true, u) => .next u.takeDataAbort
    | (false, u) => .next (u.writeBack (CopMem.writeBack s m)).advance

end Sys2Proof.Machine
end

