-- ==== Sys2Proof/Machine/Branch.lean ====
section
/-!
DEFINITION. The meanings of ARM branches and SWI (45_arm_branch_exception.md): one definition per row, over the shared bodies.
-/

namespace Sys2Proof.Machine

/-- BX, row 17 of the opcode table (R436). -/
def execBx (c : Cond) (sbo : BitVec 12) (rm : Reg) (st : State) : Result :=
  armGuard c (.bx c sbo rm) st fun t =>
    exchangeOp (t.reg rm) t

/-- B, row 91 of the opcode table (R431). -/
def execB (c : Cond) (off : BitVec 24) (st : State) : Result :=
  armGuard c (.b c off) st fun t =>
    branchOp off t

/-- BL, row 92 of the opcode table (R432). -/
def execBl (c : Cond) (off : BitVec 24) (st : State) : Result :=
  armGuard c (.bl c off) st fun t =>
    branchLinkOp off t

/-- SWI, row 99 of the opcode table (R440). -/
def execSwi (c : Cond) (imm : BitVec 24) (st : State) : Result :=
  armGuard c (.swi c imm) st fun t =>
    swiOp t

end Sys2Proof.Machine
end

