-- ==== Sys2Proof/Machine/Coprocessor.lean ====
section
/-!
DEFINITION. The meanings of coprocessor instructions and the coprocessor extension space (46_arm_coprocessor.md, 30_encoding.md R194): one definition per row, over the shared bodies.
-/

namespace Sys2Proof.Machine

/-- UNDEFINED, row 93 of the opcode table (R194). -/
def execUndCop (c : Cond) (body : BitVec 28) (st : State) : Result :=
  armGuard c (.undCop c body) st fun t =>
    undefinedOp t

/-- STC, row 94 of the opcode table (R485). -/
def execStc (c : Cond) (m : CopMem) (st : State) : Result :=
  armGuard c (.stc c m) st fun t =>
    stcOp (.stc c m) m t

/-- LDC, row 95 of the opcode table (R484). -/
def execLdc (c : Cond) (m : CopMem) (st : State) : Result :=
  armGuard c (.ldc c m) st fun t =>
    ldcOp (.ldc c m) m t

/-- CDP, row 96 of the opcode table (R480). -/
def execCdp (c : Cond) (o : CopData) (st : State) : Result :=
  armGuard c (.cdp c o) st fun t =>
    cdpOp (.cdp c o) o t

/-- MCR, row 97 of the opcode table (R481). -/
def execMcr (c : Cond) (o : CopReg) (st : State) : Result :=
  armGuard c (.mcr c o) st fun t =>
    mcrOp (.mcr c o) o t

/-- MRC, row 98 of the opcode table (R482). -/
def execMrc (c : Cond) (o : CopReg) (st : State) : Result :=
  armGuard c (.mrc c o) st fun t =>
    mrcOp (.mrc c o) o t

end Sys2Proof.Machine
end

