-- ==== Sys2Proof/Machine/Arith.lean ====
section
/-!
DEFINITION. The shared bodies of the register-only instructions: data processing (40_arm_data_processing.md R250 to R253), the
multiplies (41_arm_multiply.md), MRS and MSR (42_arm_status_register.md), and their Thumb forms (47_thumb_data.md).
-/

namespace Sys2Proof.Machine

/-- A data-processing instruction with a destination (R250 to R253): `a` the first operand, `b` operand 2. -/
def dataOp (op : DpOp) (setFlags : Bool) (rd : Reg) (a : Word) (b : Shifted) (s : State) : Result :=
  let o := alu op s.cpsr a b.val b.carry
  if rd = 15#4 then
    if setFlags then s.exceptionReturn o.res
    else if o.res.extractLsb' 0 2 = 0#2 then .next (s.branchTo o.res)
    else .refused (.unpredictable .pcUnaligned)
  else if setFlags then .next ((s.setReg rd o.res).setFlags o).advance
  else .next (s.setReg rd o.res).advance

/-- TST, TEQ, CMP, CMN: only the flags (R271 to R274). -/
def compareOp (op : DpOp) (a : Word) (b : Shifted) (s : State) : Result :=
  .next (s.setFlags (alu op s.cpsr a b.val b.carry)).advance

/-- The CPSR after MUL or MLA with S = 1: N and Z from the result, C free, V kept (R302, U3). -/
def mulFlags (s : State) (r : Word) : Word := withNZCV s.cpsr r.msb (r == 0#32) s.freeBit (flagV s.cpsr)

/-- MUL and MLA with result `r` (R302, R304, R305). -/
def mulOp (setFlags : Bool) (rd : Reg) (r : Word) (s : State) : Result :=
  if setFlags then .next (((s.setReg rd r).setCpsr (mulFlags s r)).drawn).advance
  else .next (s.setReg rd r).advance

/-- The CPSR after a long multiply with S = 1: N and Z from the 64 bits, C and V free (R302, R306, U3). -/
def mulLongFlags (s : State) (p : BitVec 64) : Word :=
  withNZCV s.cpsr p.msb (p == 0#64) (Config.freeBit s.draws) (Config.freeBit (s.draws + 1))

/-- A long multiply with 64-bit result `p` (R306 to R309). -/
def mulLongOp (setFlags : Bool) (rdHi rdLo : Reg) (p : BitVec 64) (s : State) : Result :=
  let t := (s.setReg rdHi (p.extractLsb' 32 32)).setReg rdLo (p.extractLsb' 0 32)
  if setFlags then .next ((t.setCpsr (mulLongFlags s p)).drawn.drawn).advance
  else .next t.advance

/-- The product of two registers as unsigned 64-bit (R306). -/
def umul (a b : Word) : BitVec 64 := a.setWidth 64 * b.setWidth 64

/-- The product of two registers as two's complement 64-bit (R308). -/
def smul (a b : Word) : BitVec 64 := a.signExtend 64 * b.signExtend 64

/-- The accumulator pair of UMLAL and SMLAL (R307, R309). -/
def accPair (s : State) (rdHi rdLo : Reg) : BitVec 64 := s.reg rdHi ++ s.reg rdLo

/-- MRS (R321). -/
def readStatus (r : Bool) (rd : Reg) (s : State) : Result :=
  if r then
    match s.spsrOf s.mode with
    | some p => .next (s.setReg rd p).advance
    | none => .refused (.unpredictable .noSpsr)
  else .next (s.setReg rd s.cpsr).advance

/-- `byte_mask` of MSR (R323). -/
def byteMask (m : BitVec 4) : Word :=
  (if m.getLsbD 3 then 0xFF000000#32 else 0#32) ||| (if m.getLsbD 2 then 0x00FF0000#32 else 0#32) |||
    (if m.getLsbD 1 then 0x0000FF00#32 else 0#32) ||| (if m.getLsbD 0 then 0x000000FF#32 else 0#32)

/-- `UserMask` (R323). -/
def userMask : Word := 0xF0000000#32
/-- `PrivMask` (R323). -/
def privMask : Word := 0x000000DF#32
/-- `StateMask` (R323). -/
def stateMask : Word := 0x00000020#32

/-- A PSR with the bits of `mask` taken from `v` (R324). -/
def mergePsr (old v mask : Word) : Word := (old &&& ~~~mask) ||| (v &&& mask)

/-- May MSR change the control bits of the CPSR: in a privileged mode, and in debug state whatever the mode (R325, R329)? -/
def State.mayWriteControl (s : State) : Bool := s.privileged || s.dbg.inDebug

/-- MSR (R324). It writes no PC, so the instructions behind it stay fetched (00_scope.md R22; 70_reset_and_hazards.md R923, log 43). A
reserved bit of the operand writes nothing (D12, log 6). Setting T is UNPREDICTABLE in a privileged mode and
ignored in User mode, in debug state too: R329 lifts only the mask (R326). -/
def writeStatus (r : Bool) (fields : BitVec 4) (v : Word) (s : State) : Result :=
  let bytes := byteMask fields
  if r then
    match s.spsrOf s.mode with
    | none => .refused (.unpredictable .noSpsr)
    | some p => .next (s.setSpsr s.mode (mergePsr p v (bytes &&& (userMask ||| privMask ||| stateMask)))).advance
  else if s.privileged = true ∧ v &&& stateMask &&& bytes ≠ 0#32 then .refused (.unpredictable .setThumb)
  else if s.mayWriteControl then
    let p := mergePsr s.cpsr v (bytes &&& (userMask ||| privMask))
    if legalMode (modeOf p) then .next (s.setCpsr p).advance else .refused (.unpredictable .illegalMode)
  else .next (s.setCpsr (mergePsr s.cpsr v (bytes &&& userMask))).advance

/-- A Thumb instruction that writes a low register and all four flags (47_thumb_data.md R522). -/
def thumbAlu (rd : LowReg) (o : AluOut) (s : State) : Result := .next ((s.setReg (lowReg rd) o.res).setFlags o).advance

/-- A Thumb instruction that writes only the flags. -/
def thumbFlags (o : AluOut) (s : State) : Result := .next (s.setFlags o).advance

/-- A Thumb instruction that writes a register and no flag; R15 is a branch that stays in Thumb state (R560, R562). -/
def thumbWrite (rd : Reg) (v : Word) (s : State) : Result :=
  if rd = 15#4 then .next (s.branchTo (v &&& 0xFFFFFFFE#32)) else .next (s.setReg rd v).advance

/-- A Thumb shift: the result and N, Z, C from the shifter, V kept (R524 to R526, R542 to R547). -/
def thumbShift (rd : LowReg) (x : Shifted) (s : State) : Result := thumbAlu rd (logical s.cpsr x.val x.carry) s

end Sys2Proof.Machine
end

