-- ==== Sys2Proof/Machine/DataProcessing.lean ====
section
/-!
DEFINITION. The meanings of the sixteen ARM data-processing operations in their three operand forms (40_arm_data_processing.md): one definition per row, over the shared bodies.
-/

namespace Sys2Proof.Machine

/-- AND, row 19 of the opcode table (R263). -/
def execAndShiftImm (c : Cond) (s : Bool) (rn : Reg) (rd : Reg) (o : ShiftImm) (st : State) : Result :=
  armGuard c (.andShiftImm c s rn rd o) st fun t =>
    dataOp .and s rd (t.reg rn) (op2ShiftImm t o) t

/-- AND, row 20 of the opcode table (R263). -/
def execAndShiftReg (c : Cond) (s : Bool) (rn : Reg) (rd : Reg) (o : ShiftReg) (st : State) : Result :=
  armGuard c (.andShiftReg c s rn rd o) st fun t =>
    dataOp .and s rd (t.reg rn) (op2ShiftReg t o) t

/-- EOR, row 21 of the opcode table (R264). -/
def execEorShiftImm (c : Cond) (s : Bool) (rn : Reg) (rd : Reg) (o : ShiftImm) (st : State) : Result :=
  armGuard c (.eorShiftImm c s rn rd o) st fun t =>
    dataOp .eor s rd (t.reg rn) (op2ShiftImm t o) t

/-- EOR, row 22 of the opcode table (R264). -/
def execEorShiftReg (c : Cond) (s : Bool) (rn : Reg) (rd : Reg) (o : ShiftReg) (st : State) : Result :=
  armGuard c (.eorShiftReg c s rn rd o) st fun t =>
    dataOp .eor s rd (t.reg rn) (op2ShiftReg t o) t

/-- SUB, row 23 of the opcode table (R265). -/
def execSubShiftImm (c : Cond) (s : Bool) (rn : Reg) (rd : Reg) (o : ShiftImm) (st : State) : Result :=
  armGuard c (.subShiftImm c s rn rd o) st fun t =>
    dataOp .sub s rd (t.reg rn) (op2ShiftImm t o) t

/-- SUB, row 24 of the opcode table (R265). -/
def execSubShiftReg (c : Cond) (s : Bool) (rn : Reg) (rd : Reg) (o : ShiftReg) (st : State) : Result :=
  armGuard c (.subShiftReg c s rn rd o) st fun t =>
    dataOp .sub s rd (t.reg rn) (op2ShiftReg t o) t

/-- RSB, row 25 of the opcode table (R266). -/
def execRsbShiftImm (c : Cond) (s : Bool) (rn : Reg) (rd : Reg) (o : ShiftImm) (st : State) : Result :=
  armGuard c (.rsbShiftImm c s rn rd o) st fun t =>
    dataOp .rsb s rd (t.reg rn) (op2ShiftImm t o) t

/-- RSB, row 26 of the opcode table (R266). -/
def execRsbShiftReg (c : Cond) (s : Bool) (rn : Reg) (rd : Reg) (o : ShiftReg) (st : State) : Result :=
  armGuard c (.rsbShiftReg c s rn rd o) st fun t =>
    dataOp .rsb s rd (t.reg rn) (op2ShiftReg t o) t

/-- ADD, row 27 of the opcode table (R267). -/
def execAddShiftImm (c : Cond) (s : Bool) (rn : Reg) (rd : Reg) (o : ShiftImm) (st : State) : Result :=
  armGuard c (.addShiftImm c s rn rd o) st fun t =>
    dataOp .add s rd (t.reg rn) (op2ShiftImm t o) t

/-- ADD, row 28 of the opcode table (R267). -/
def execAddShiftReg (c : Cond) (s : Bool) (rn : Reg) (rd : Reg) (o : ShiftReg) (st : State) : Result :=
  armGuard c (.addShiftReg c s rn rd o) st fun t =>
    dataOp .add s rd (t.reg rn) (op2ShiftReg t o) t

/-- ADC, row 29 of the opcode table (R268). -/
def execAdcShiftImm (c : Cond) (s : Bool) (rn : Reg) (rd : Reg) (o : ShiftImm) (st : State) : Result :=
  armGuard c (.adcShiftImm c s rn rd o) st fun t =>
    dataOp .adc s rd (t.reg rn) (op2ShiftImm t o) t

/-- ADC, row 30 of the opcode table (R268). -/
def execAdcShiftReg (c : Cond) (s : Bool) (rn : Reg) (rd : Reg) (o : ShiftReg) (st : State) : Result :=
  armGuard c (.adcShiftReg c s rn rd o) st fun t =>
    dataOp .adc s rd (t.reg rn) (op2ShiftReg t o) t

/-- SBC, row 31 of the opcode table (R269). -/
def execSbcShiftImm (c : Cond) (s : Bool) (rn : Reg) (rd : Reg) (o : ShiftImm) (st : State) : Result :=
  armGuard c (.sbcShiftImm c s rn rd o) st fun t =>
    dataOp .sbc s rd (t.reg rn) (op2ShiftImm t o) t

/-- SBC, row 32 of the opcode table (R269). -/
def execSbcShiftReg (c : Cond) (s : Bool) (rn : Reg) (rd : Reg) (o : ShiftReg) (st : State) : Result :=
  armGuard c (.sbcShiftReg c s rn rd o) st fun t =>
    dataOp .sbc s rd (t.reg rn) (op2ShiftReg t o) t

/-- RSC, row 33 of the opcode table (R270). -/
def execRscShiftImm (c : Cond) (s : Bool) (rn : Reg) (rd : Reg) (o : ShiftImm) (st : State) : Result :=
  armGuard c (.rscShiftImm c s rn rd o) st fun t =>
    dataOp .rsc s rd (t.reg rn) (op2ShiftImm t o) t

/-- RSC, row 34 of the opcode table (R270). -/
def execRscShiftReg (c : Cond) (s : Bool) (rn : Reg) (rd : Reg) (o : ShiftReg) (st : State) : Result :=
  armGuard c (.rscShiftReg c s rn rd o) st fun t =>
    dataOp .rsc s rd (t.reg rn) (op2ShiftReg t o) t

/-- TST, row 35 of the opcode table (R271). -/
def execTstShiftImm (c : Cond) (rn : Reg) (sbz : Reg) (o : ShiftImm) (st : State) : Result :=
  armGuard c (.tstShiftImm c rn sbz o) st fun t =>
    compareOp .tst (t.reg rn) (op2ShiftImm t o) t

/-- TST, row 36 of the opcode table (R271). -/
def execTstShiftReg (c : Cond) (rn : Reg) (sbz : Reg) (o : ShiftReg) (st : State) : Result :=
  armGuard c (.tstShiftReg c rn sbz o) st fun t =>
    compareOp .tst (t.reg rn) (op2ShiftReg t o) t

/-- TEQ, row 37 of the opcode table (R272). -/
def execTeqShiftImm (c : Cond) (rn : Reg) (sbz : Reg) (o : ShiftImm) (st : State) : Result :=
  armGuard c (.teqShiftImm c rn sbz o) st fun t =>
    compareOp .teq (t.reg rn) (op2ShiftImm t o) t

/-- TEQ, row 38 of the opcode table (R272). -/
def execTeqShiftReg (c : Cond) (rn : Reg) (sbz : Reg) (o : ShiftReg) (st : State) : Result :=
  armGuard c (.teqShiftReg c rn sbz o) st fun t =>
    compareOp .teq (t.reg rn) (op2ShiftReg t o) t

/-- CMP, row 39 of the opcode table (R273). -/
def execCmpShiftImm (c : Cond) (rn : Reg) (sbz : Reg) (o : ShiftImm) (st : State) : Result :=
  armGuard c (.cmpShiftImm c rn sbz o) st fun t =>
    compareOp .cmp (t.reg rn) (op2ShiftImm t o) t

/-- CMP, row 40 of the opcode table (R273). -/
def execCmpShiftReg (c : Cond) (rn : Reg) (sbz : Reg) (o : ShiftReg) (st : State) : Result :=
  armGuard c (.cmpShiftReg c rn sbz o) st fun t =>
    compareOp .cmp (t.reg rn) (op2ShiftReg t o) t

/-- CMN, row 41 of the opcode table (R274). -/
def execCmnShiftImm (c : Cond) (rn : Reg) (sbz : Reg) (o : ShiftImm) (st : State) : Result :=
  armGuard c (.cmnShiftImm c rn sbz o) st fun t =>
    compareOp .cmn (t.reg rn) (op2ShiftImm t o) t

/-- CMN, row 42 of the opcode table (R274). -/
def execCmnShiftReg (c : Cond) (rn : Reg) (sbz : Reg) (o : ShiftReg) (st : State) : Result :=
  armGuard c (.cmnShiftReg c rn sbz o) st fun t =>
    compareOp .cmn (t.reg rn) (op2ShiftReg t o) t

/-- ORR, row 43 of the opcode table (R275). -/
def execOrrShiftImm (c : Cond) (s : Bool) (rn : Reg) (rd : Reg) (o : ShiftImm) (st : State) : Result :=
  armGuard c (.orrShiftImm c s rn rd o) st fun t =>
    dataOp .orr s rd (t.reg rn) (op2ShiftImm t o) t

/-- ORR, row 44 of the opcode table (R275). -/
def execOrrShiftReg (c : Cond) (s : Bool) (rn : Reg) (rd : Reg) (o : ShiftReg) (st : State) : Result :=
  armGuard c (.orrShiftReg c s rn rd o) st fun t =>
    dataOp .orr s rd (t.reg rn) (op2ShiftReg t o) t

/-- MOV, row 45 of the opcode table (R276). -/
def execMovShiftImm (c : Cond) (s : Bool) (sbz : Reg) (rd : Reg) (o : ShiftImm) (st : State) : Result :=
  armGuard c (.movShiftImm c s sbz rd o) st fun t =>
    dataOp .mov s rd 0#32 (op2ShiftImm t o) t

/-- MOV, row 46 of the opcode table (R276). -/
def execMovShiftReg (c : Cond) (s : Bool) (sbz : Reg) (rd : Reg) (o : ShiftReg) (st : State) : Result :=
  armGuard c (.movShiftReg c s sbz rd o) st fun t =>
    dataOp .mov s rd 0#32 (op2ShiftReg t o) t

/-- BIC, row 47 of the opcode table (R277). -/
def execBicShiftImm (c : Cond) (s : Bool) (rn : Reg) (rd : Reg) (o : ShiftImm) (st : State) : Result :=
  armGuard c (.bicShiftImm c s rn rd o) st fun t =>
    dataOp .bic s rd (t.reg rn) (op2ShiftImm t o) t

/-- BIC, row 48 of the opcode table (R277). -/
def execBicShiftReg (c : Cond) (s : Bool) (rn : Reg) (rd : Reg) (o : ShiftReg) (st : State) : Result :=
  armGuard c (.bicShiftReg c s rn rd o) st fun t =>
    dataOp .bic s rd (t.reg rn) (op2ShiftReg t o) t

/-- MVN, row 49 of the opcode table (R278). -/
def execMvnShiftImm (c : Cond) (s : Bool) (sbz : Reg) (rd : Reg) (o : ShiftImm) (st : State) : Result :=
  armGuard c (.mvnShiftImm c s sbz rd o) st fun t =>
    dataOp .mvn s rd 0#32 (op2ShiftImm t o) t

/-- MVN, row 50 of the opcode table (R278). -/
def execMvnShiftReg (c : Cond) (s : Bool) (sbz : Reg) (rd : Reg) (o : ShiftReg) (st : State) : Result :=
  armGuard c (.mvnShiftReg c s sbz rd o) st fun t =>
    dataOp .mvn s rd 0#32 (op2ShiftReg t o) t

/-- AND, row 53 of the opcode table (R263). -/
def execAndImm (c : Cond) (s : Bool) (rn : Reg) (rd : Reg) (o : RotImm) (st : State) : Result :=
  armGuard c (.andImm c s rn rd o) st fun t =>
    dataOp .and s rd (t.reg rn) (op2Imm t o) t

/-- EOR, row 54 of the opcode table (R264). -/
def execEorImm (c : Cond) (s : Bool) (rn : Reg) (rd : Reg) (o : RotImm) (st : State) : Result :=
  armGuard c (.eorImm c s rn rd o) st fun t =>
    dataOp .eor s rd (t.reg rn) (op2Imm t o) t

/-- SUB, row 55 of the opcode table (R265). -/
def execSubImm (c : Cond) (s : Bool) (rn : Reg) (rd : Reg) (o : RotImm) (st : State) : Result :=
  armGuard c (.subImm c s rn rd o) st fun t =>
    dataOp .sub s rd (t.reg rn) (op2Imm t o) t

/-- RSB, row 56 of the opcode table (R266). -/
def execRsbImm (c : Cond) (s : Bool) (rn : Reg) (rd : Reg) (o : RotImm) (st : State) : Result :=
  armGuard c (.rsbImm c s rn rd o) st fun t =>
    dataOp .rsb s rd (t.reg rn) (op2Imm t o) t

/-- ADD, row 57 of the opcode table (R267). -/
def execAddImm (c : Cond) (s : Bool) (rn : Reg) (rd : Reg) (o : RotImm) (st : State) : Result :=
  armGuard c (.addImm c s rn rd o) st fun t =>
    dataOp .add s rd (t.reg rn) (op2Imm t o) t

/-- ADC, row 58 of the opcode table (R268). -/
def execAdcImm (c : Cond) (s : Bool) (rn : Reg) (rd : Reg) (o : RotImm) (st : State) : Result :=
  armGuard c (.adcImm c s rn rd o) st fun t =>
    dataOp .adc s rd (t.reg rn) (op2Imm t o) t

/-- SBC, row 59 of the opcode table (R269). -/
def execSbcImm (c : Cond) (s : Bool) (rn : Reg) (rd : Reg) (o : RotImm) (st : State) : Result :=
  armGuard c (.sbcImm c s rn rd o) st fun t =>
    dataOp .sbc s rd (t.reg rn) (op2Imm t o) t

/-- RSC, row 60 of the opcode table (R270). -/
def execRscImm (c : Cond) (s : Bool) (rn : Reg) (rd : Reg) (o : RotImm) (st : State) : Result :=
  armGuard c (.rscImm c s rn rd o) st fun t =>
    dataOp .rsc s rd (t.reg rn) (op2Imm t o) t

/-- TST, row 61 of the opcode table (R271). -/
def execTstImm (c : Cond) (rn : Reg) (sbz : Reg) (o : RotImm) (st : State) : Result :=
  armGuard c (.tstImm c rn sbz o) st fun t =>
    compareOp .tst (t.reg rn) (op2Imm t o) t

/-- TEQ, row 62 of the opcode table (R272). -/
def execTeqImm (c : Cond) (rn : Reg) (sbz : Reg) (o : RotImm) (st : State) : Result :=
  armGuard c (.teqImm c rn sbz o) st fun t =>
    compareOp .teq (t.reg rn) (op2Imm t o) t

/-- CMP, row 63 of the opcode table (R273). -/
def execCmpImm (c : Cond) (rn : Reg) (sbz : Reg) (o : RotImm) (st : State) : Result :=
  armGuard c (.cmpImm c rn sbz o) st fun t =>
    compareOp .cmp (t.reg rn) (op2Imm t o) t

/-- CMN, row 64 of the opcode table (R274). -/
def execCmnImm (c : Cond) (rn : Reg) (sbz : Reg) (o : RotImm) (st : State) : Result :=
  armGuard c (.cmnImm c rn sbz o) st fun t =>
    compareOp .cmn (t.reg rn) (op2Imm t o) t

/-- ORR, row 65 of the opcode table (R275). -/
def execOrrImm (c : Cond) (s : Bool) (rn : Reg) (rd : Reg) (o : RotImm) (st : State) : Result :=
  armGuard c (.orrImm c s rn rd o) st fun t =>
    dataOp .orr s rd (t.reg rn) (op2Imm t o) t

/-- MOV, row 66 of the opcode table (R276). -/
def execMovImm (c : Cond) (s : Bool) (sbz : Reg) (rd : Reg) (o : RotImm) (st : State) : Result :=
  armGuard c (.movImm c s sbz rd o) st fun t =>
    dataOp .mov s rd 0#32 (op2Imm t o) t

/-- BIC, row 67 of the opcode table (R277). -/
def execBicImm (c : Cond) (s : Bool) (rn : Reg) (rd : Reg) (o : RotImm) (st : State) : Result :=
  armGuard c (.bicImm c s rn rd o) st fun t =>
    dataOp .bic s rd (t.reg rn) (op2Imm t o) t

/-- MVN, row 68 of the opcode table (R278). -/
def execMvnImm (c : Cond) (s : Bool) (sbz : Reg) (rd : Reg) (o : RotImm) (st : State) : Result :=
  armGuard c (.mvnImm c s sbz rd o) st fun t =>
    dataOp .mvn s rd 0#32 (op2Imm t o) t

end Sys2Proof.Machine
end

