-- ==== Sys2Proof/Machine/LoadStore.lean ====
section
/-!
DEFINITION. The meanings of swap, halfword, signed, word and byte transfers and their extension spaces (43_arm_load_store.md, 44_arm_load_store_multiple_swap.md R420, R421, 30_encoding.md R190, R193): one definition per row, over the shared bodies.
-/

namespace Sys2Proof.Machine

/-- SWP, row 7 of the opcode table (R420). -/
def execSwp (c : Cond) (rn : Reg) (rd : Reg) (sbz : Reg) (rm : Reg) (st : State) : Result :=
  armGuard c (.swp c rn rd sbz rm) st fun t =>
    swapOp .word rn rd rm t

/-- SWPB, row 8 of the opcode table (R421). -/
def execSwpb (c : Cond) (rn : Reg) (rd : Reg) (sbz : Reg) (rm : Reg) (st : State) : Result :=
  armGuard c (.swpb c rn rd sbz rm) st fun t =>
    swapOp .byte rn rd rm t

/-- UNDEFINED, row 9 of the opcode table (R193 (a)). -/
def execUndLsA (c : Cond) (body : BitVec 28) (st : State) : Result :=
  armGuard c (.undLsA c body) st fun t =>
    undefinedOp t

/-- STRH, row 10 of the opcode table (R363). -/
def execStrh (c : Cond) (m : Mode3) (st : State) : Result :=
  armGuard c (.strh c m) st fun t =>
    store3 m t

/-- LDRH, row 11 of the opcode table (R360). -/
def execLdrh (c : Cond) (m : Mode3) (st : State) : Result :=
  armGuard c (.ldrh c m) st fun t =>
    load3 .half m t

/-- LDRSB, row 12 of the opcode table (R362). -/
def execLdrsb (c : Cond) (m : Mode3) (st : State) : Result :=
  armGuard c (.ldrsb c m) st fun t =>
    load3 .sbyte m t

/-- LDRSH, row 13 of the opcode table (R361). -/
def execLdrsh (c : Cond) (m : Mode3) (st : State) : Result :=
  armGuard c (.ldrsh c m) st fun t =>
    load3 .shalf m t

/-- UNDEFINED, row 14 of the opcode table (R193 (b)). -/
def execUndLsB (c : Cond) (body : BitVec 28) (st : State) : Result :=
  armGuard c (.undLsB c body) st fun t =>
    undefinedOp t

/-- STRT, row 69 of the opcode table (R352). -/
def execStrtImm (c : Cond) (u : Bool) (rn : Reg) (rd : Reg) (imm : BitVec 12) (st : State) : Result :=
  armGuard c (.strtImm c u rn rd imm) st fun t =>
    storeUser .word u rn rd (imm12Offset imm) t

/-- LDRT, row 70 of the opcode table (R350). -/
def execLdrtImm (c : Cond) (u : Bool) (rn : Reg) (rd : Reg) (imm : BitVec 12) (st : State) : Result :=
  armGuard c (.ldrtImm c u rn rd imm) st fun t =>
    loadUser .word u rn rd (imm12Offset imm) t

/-- STRBT, row 71 of the opcode table (R353). -/
def execStrbtImm (c : Cond) (u : Bool) (rn : Reg) (rd : Reg) (imm : BitVec 12) (st : State) : Result :=
  armGuard c (.strbtImm c u rn rd imm) st fun t =>
    storeUser .byte u rn rd (imm12Offset imm) t

/-- LDRBT, row 72 of the opcode table (R351). -/
def execLdrbtImm (c : Cond) (u : Bool) (rn : Reg) (rd : Reg) (imm : BitVec 12) (st : State) : Result :=
  armGuard c (.ldrbtImm c u rn rd imm) st fun t =>
    loadUser .byte u rn rd (imm12Offset imm) t

/-- STR, row 73 of the opcode table (R348). -/
def execStrImm (c : Cond) (a : Mode2) (imm : BitVec 12) (st : State) : Result :=
  armGuard c (.strImm c a imm) st fun t =>
    store2 .word a (imm12Offset imm) t

/-- LDR, row 74 of the opcode table (R346). -/
def execLdrImm (c : Cond) (a : Mode2) (imm : BitVec 12) (st : State) : Result :=
  armGuard c (.ldrImm c a imm) st fun t =>
    load2 .word a (imm12Offset imm) t

/-- STRB, row 75 of the opcode table (R349). -/
def execStrbImm (c : Cond) (a : Mode2) (imm : BitVec 12) (st : State) : Result :=
  armGuard c (.strbImm c a imm) st fun t =>
    store2 .byte a (imm12Offset imm) t

/-- LDRB, row 76 of the opcode table (R347). -/
def execLdrbImm (c : Cond) (a : Mode2) (imm : BitVec 12) (st : State) : Result :=
  armGuard c (.ldrbImm c a imm) st fun t =>
    load2 .byte a (imm12Offset imm) t

/-- UNDEFINED, row 77 of the opcode table (R190). -/
def execUndSpace (c : Cond) (body : BitVec 28) (st : State) : Result :=
  armGuard c (.undSpace c body) st fun t =>
    undefinedOp t

/-- STRT, row 78 of the opcode table (R352). -/
def execStrtReg (c : Cond) (u : Bool) (rn : Reg) (rd : Reg) (o : ShiftImm) (st : State) : Result :=
  armGuard c (.strtReg c u rn rd o) st fun t =>
    storeUser .word u rn rd (shiftedOffset t o) t

/-- LDRT, row 79 of the opcode table (R350). -/
def execLdrtReg (c : Cond) (u : Bool) (rn : Reg) (rd : Reg) (o : ShiftImm) (st : State) : Result :=
  armGuard c (.ldrtReg c u rn rd o) st fun t =>
    loadUser .word u rn rd (shiftedOffset t o) t

/-- STRBT, row 80 of the opcode table (R353). -/
def execStrbtReg (c : Cond) (u : Bool) (rn : Reg) (rd : Reg) (o : ShiftImm) (st : State) : Result :=
  armGuard c (.strbtReg c u rn rd o) st fun t =>
    storeUser .byte u rn rd (shiftedOffset t o) t

/-- LDRBT, row 81 of the opcode table (R351). -/
def execLdrbtReg (c : Cond) (u : Bool) (rn : Reg) (rd : Reg) (o : ShiftImm) (st : State) : Result :=
  armGuard c (.ldrbtReg c u rn rd o) st fun t =>
    loadUser .byte u rn rd (shiftedOffset t o) t

/-- STR, row 82 of the opcode table (R348). -/
def execStrReg (c : Cond) (a : Mode2) (o : ShiftImm) (st : State) : Result :=
  armGuard c (.strReg c a o) st fun t =>
    store2 .word a (shiftedOffset t o) t

/-- LDR, row 83 of the opcode table (R346). -/
def execLdrReg (c : Cond) (a : Mode2) (o : ShiftImm) (st : State) : Result :=
  armGuard c (.ldrReg c a o) st fun t =>
    load2 .word a (shiftedOffset t o) t

/-- STRB, row 84 of the opcode table (R349). -/
def execStrbReg (c : Cond) (a : Mode2) (o : ShiftImm) (st : State) : Result :=
  armGuard c (.strbReg c a o) st fun t =>
    store2 .byte a (shiftedOffset t o) t

/-- LDRB, row 85 of the opcode table (R347). -/
def execLdrbReg (c : Cond) (a : Mode2) (o : ShiftImm) (st : State) : Result :=
  armGuard c (.ldrbReg c a o) st fun t =>
    load2 .byte a (shiftedOffset t o) t

end Sys2Proof.Machine
end

