-- ==== Sys2Proof/Machine/Multiply.lean ====
section
/-!
DEFINITION. The meanings of the ARM multiplies and the arithmetic extension space (41_arm_multiply.md, 30_encoding.md R191): one definition per row, over the shared bodies.
-/

namespace Sys2Proof.Machine

/-- MUL, row 0 of the opcode table (R304). -/
def execMul (c : Cond) (s : Bool) (rd : Reg) (sbz : Reg) (rs : Reg) (rm : Reg) (st : State) : Result :=
  armGuard c (.mul c s rd sbz rs rm) st fun t =>
    mulOp s rd (t.reg rm * t.reg rs) t

/-- MLA, row 1 of the opcode table (R305). -/
def execMla (c : Cond) (s : Bool) (rd : Reg) (rn : Reg) (rs : Reg) (rm : Reg) (st : State) : Result :=
  armGuard c (.mla c s rd rn rs rm) st fun t =>
    mulOp s rd (t.reg rm * t.reg rs + t.reg rn) t

/-- UMULL, row 2 of the opcode table (R306). -/
def execUmull (c : Cond) (s : Bool) (rdHi : Reg) (rdLo : Reg) (rs : Reg) (rm : Reg) (st : State) : Result :=
  armGuard c (.umull c s rdHi rdLo rs rm) st fun t =>
    mulLongOp s rdHi rdLo (umul (t.reg rm) (t.reg rs)) t

/-- UMLAL, row 3 of the opcode table (R307). -/
def execUmlal (c : Cond) (s : Bool) (rdHi : Reg) (rdLo : Reg) (rs : Reg) (rm : Reg) (st : State) : Result :=
  armGuard c (.umlal c s rdHi rdLo rs rm) st fun t =>
    mulLongOp s rdHi rdLo (umul (t.reg rm) (t.reg rs) + accPair t rdHi rdLo) t

/-- SMULL, row 4 of the opcode table (R308). -/
def execSmull (c : Cond) (s : Bool) (rdHi : Reg) (rdLo : Reg) (rs : Reg) (rm : Reg) (st : State) : Result :=
  armGuard c (.smull c s rdHi rdLo rs rm) st fun t =>
    mulLongOp s rdHi rdLo (smul (t.reg rm) (t.reg rs)) t

/-- SMLAL, row 5 of the opcode table (R309). -/
def execSmlal (c : Cond) (s : Bool) (rdHi : Reg) (rdLo : Reg) (rs : Reg) (rm : Reg) (st : State) : Result :=
  armGuard c (.smlal c s rdHi rdLo rs rm) st fun t =>
    mulLongOp s rdHi rdLo (smul (t.reg rm) (t.reg rs) + accPair t rdHi rdLo) t

/-- UNDEFINED, row 6 of the opcode table (R191). -/
def execUndArith (c : Cond) (body : BitVec 28) (st : State) : Result :=
  armGuard c (.undArith c body) st fun t =>
    undefinedOp t

end Sys2Proof.Machine
end

