-- ==== Sys2Proof/Machine/Status.lean ====
section
/-!
DEFINITION. The meanings of MRS, MSR and the control extension space (42_arm_status_register.md, 30_encoding.md R192): one definition per row, over the shared bodies.
-/

namespace Sys2Proof.Machine

/-- MRS, row 15 of the opcode table (R321). -/
def execMrs (c : Cond) (r : Bool) (sbo : Reg) (rd : Reg) (sbzHi : Reg) (sbzLo : Reg) (st : State) : Result :=
  armGuard c (.mrs c r sbo rd sbzHi sbzLo) st fun t =>
    readStatus r rd t

/-- MSR, row 16 of the opcode table (R324). -/
def execMsrReg (c : Cond) (r : Bool) (mask : Reg) (sbo : Reg) (sbz : Reg) (rm : Reg) (st : State) : Result :=
  armGuard c (.msrReg c r mask sbo sbz rm) st fun t =>
    writeStatus r mask (t.reg rm) t

/-- UNDEFINED, row 18 of the opcode table (R192). -/
def execUndCtlReg (c : Cond) (body : BitVec 28) (st : State) : Result :=
  armGuard c (.undCtlReg c body) st fun t =>
    undefinedOp t

/-- MSR, row 51 of the opcode table (R324). -/
def execMsrImm (c : Cond) (r : Bool) (mask : Reg) (sbo : Reg) (o : RotImm) (st : State) : Result :=
  armGuard c (.msrImm c r mask sbo o) st fun t =>
    writeStatus r mask (RotImm.value o) t

/-- UNDEFINED, row 52 of the opcode table (R192). -/
def execUndCtlImm (c : Cond) (body : BitVec 28) (st : State) : Result :=
  armGuard c (.undCtlImm c body) st fun t =>
    undefinedOp t

end Sys2Proof.Machine
end

