-- ==== Sys2Proof/Machine/ThumbData.lean ====
section
/-!
DEFINITION. The meanings of Thumb formats 1 to 5, 12 and 13 without BX (47_thumb_data.md): one definition per row, over the shared bodies.
-/

namespace Sys2Proof.Machine

/-- LSL, row 100 of the opcode table (R524). -/
def execTLslImm (n : BitVec 5) (rs : LowReg) (rd : LowReg) (st : State) : Result :=
  thumbGuard (.tLslImm n rs rd) st fun t =>
    thumbShift rd (shiftByImm .lsl (t.reg (lowReg rs)) n.toNat (flagC t.cpsr)) t

/-- LSR, row 101 of the opcode table (R525). -/
def execTLsrImm (n : BitVec 5) (rs : LowReg) (rd : LowReg) (st : State) : Result :=
  thumbGuard (.tLsrImm n rs rd) st fun t =>
    thumbShift rd (shiftByImm .lsr (t.reg (lowReg rs)) n.toNat (flagC t.cpsr)) t

/-- ASR, row 102 of the opcode table (R526). -/
def execTAsrImm (n : BitVec 5) (rs : LowReg) (rd : LowReg) (st : State) : Result :=
  thumbGuard (.tAsrImm n rs rd) st fun t =>
    thumbShift rd (shiftByImm .asr (t.reg (lowReg rs)) n.toNat (flagC t.cpsr)) t

/-- ADD, row 103 of the opcode table (R527). -/
def execTAddReg (rn : LowReg) (rs : LowReg) (rd : LowReg) (st : State) : Result :=
  thumbGuard (.tAddReg rn rs rd) st fun t =>
    thumbAlu rd (addition (t.reg (lowReg rs)) (t.reg (lowReg rn)) false) t

/-- SUB, row 104 of the opcode table (R528). -/
def execTSubReg (rn : LowReg) (rs : LowReg) (rd : LowReg) (st : State) : Result :=
  thumbGuard (.tSubReg rn rs rd) st fun t =>
    thumbAlu rd (subtraction (t.reg (lowReg rs)) (t.reg (lowReg rn)) false) t

/-- ADD, row 105 of the opcode table (R529). -/
def execTAddImm3 (n : BitVec 3) (rs : LowReg) (rd : LowReg) (st : State) : Result :=
  thumbGuard (.tAddImm3 n rs rd) st fun t =>
    thumbAlu rd (addition (t.reg (lowReg rs)) (n.setWidth 32) false) t

/-- SUB, row 106 of the opcode table (R530). -/
def execTSubImm3 (n : BitVec 3) (rs : LowReg) (rd : LowReg) (st : State) : Result :=
  thumbGuard (.tSubImm3 n rs rd) st fun t =>
    thumbAlu rd (subtraction (t.reg (lowReg rs)) (n.setWidth 32) false) t

/-- MOV, row 107 of the opcode table (R531). -/
def execTMovImm (rd : LowReg) (n : BitVec 8) (st : State) : Result :=
  thumbGuard (.tMovImm rd n) st fun t =>
    thumbAlu rd (logical t.cpsr (n.setWidth 32) (flagC t.cpsr)) t

/-- CMP, row 108 of the opcode table (R532). -/
def execTCmpImm (rd : LowReg) (n : BitVec 8) (st : State) : Result :=
  thumbGuard (.tCmpImm rd n) st fun t =>
    thumbFlags (subtraction (t.reg (lowReg rd)) (n.setWidth 32) false) t

/-- ADD, row 109 of the opcode table (R533). -/
def execTAddImm (rd : LowReg) (n : BitVec 8) (st : State) : Result :=
  thumbGuard (.tAddImm rd n) st fun t =>
    thumbAlu rd (addition (t.reg (lowReg rd)) (n.setWidth 32) false) t

/-- SUB, row 110 of the opcode table (R534). -/
def execTSubImm (rd : LowReg) (n : BitVec 8) (st : State) : Result :=
  thumbGuard (.tSubImm rd n) st fun t =>
    thumbAlu rd (subtraction (t.reg (lowReg rd)) (n.setWidth 32) false) t

/-- AND, row 111 of the opcode table (R540). -/
def execTAnd (rs : LowReg) (rd : LowReg) (st : State) : Result :=
  thumbGuard (.tAnd rs rd) st fun t =>
    thumbAlu rd (alu .and t.cpsr (t.reg (lowReg rd)) (t.reg (lowReg rs)) (flagC t.cpsr)) t

/-- EOR, row 112 of the opcode table (R541). -/
def execTEor (rs : LowReg) (rd : LowReg) (st : State) : Result :=
  thumbGuard (.tEor rs rd) st fun t =>
    thumbAlu rd (alu .eor t.cpsr (t.reg (lowReg rd)) (t.reg (lowReg rs)) (flagC t.cpsr)) t

/-- LSL, row 113 of the opcode table (R542). -/
def execTLsl (rs : LowReg) (rd : LowReg) (st : State) : Result :=
  thumbGuard (.tLsl rs rd) st fun t =>
    thumbShift rd (shiftByReg .lsl (t.reg (lowReg rd)) ((t.reg (lowReg rs)).extractLsb' 0 8).toNat (flagC t.cpsr)) t

/-- LSR, row 114 of the opcode table (R543). -/
def execTLsr (rs : LowReg) (rd : LowReg) (st : State) : Result :=
  thumbGuard (.tLsr rs rd) st fun t =>
    thumbShift rd (shiftByReg .lsr (t.reg (lowReg rd)) ((t.reg (lowReg rs)).extractLsb' 0 8).toNat (flagC t.cpsr)) t

/-- ASR, row 115 of the opcode table (R544). -/
def execTAsr (rs : LowReg) (rd : LowReg) (st : State) : Result :=
  thumbGuard (.tAsr rs rd) st fun t =>
    thumbShift rd (shiftByReg .asr (t.reg (lowReg rd)) ((t.reg (lowReg rs)).extractLsb' 0 8).toNat (flagC t.cpsr)) t

/-- ADC, row 116 of the opcode table (R545). -/
def execTAdc (rs : LowReg) (rd : LowReg) (st : State) : Result :=
  thumbGuard (.tAdc rs rd) st fun t =>
    thumbAlu rd (alu .adc t.cpsr (t.reg (lowReg rd)) (t.reg (lowReg rs)) (flagC t.cpsr)) t

/-- SBC, row 117 of the opcode table (R546). -/
def execTSbc (rs : LowReg) (rd : LowReg) (st : State) : Result :=
  thumbGuard (.tSbc rs rd) st fun t =>
    thumbAlu rd (alu .sbc t.cpsr (t.reg (lowReg rd)) (t.reg (lowReg rs)) (flagC t.cpsr)) t

/-- ROR, row 118 of the opcode table (R547). -/
def execTRor (rs : LowReg) (rd : LowReg) (st : State) : Result :=
  thumbGuard (.tRor rs rd) st fun t =>
    thumbShift rd (shiftByReg .ror (t.reg (lowReg rd)) ((t.reg (lowReg rs)).extractLsb' 0 8).toNat (flagC t.cpsr)) t

/-- TST, row 119 of the opcode table (R548). -/
def execTTst (rs : LowReg) (rd : LowReg) (st : State) : Result :=
  thumbGuard (.tTst rs rd) st fun t =>
    thumbFlags (alu .tst t.cpsr (t.reg (lowReg rd)) (t.reg (lowReg rs)) (flagC t.cpsr)) t

/-- NEG, row 120 of the opcode table (R549). -/
def execTNeg (rs : LowReg) (rd : LowReg) (st : State) : Result :=
  thumbGuard (.tNeg rs rd) st fun t =>
    thumbAlu rd (subtraction 0#32 (t.reg (lowReg rs)) false) t

/-- CMP, row 121 of the opcode table (R550). -/
def execTCmp (rs : LowReg) (rd : LowReg) (st : State) : Result :=
  thumbGuard (.tCmp rs rd) st fun t =>
    thumbFlags (alu .cmp t.cpsr (t.reg (lowReg rd)) (t.reg (lowReg rs)) (flagC t.cpsr)) t

/-- CMN, row 122 of the opcode table (R551). -/
def execTCmn (rs : LowReg) (rd : LowReg) (st : State) : Result :=
  thumbGuard (.tCmn rs rd) st fun t =>
    thumbFlags (alu .cmn t.cpsr (t.reg (lowReg rd)) (t.reg (lowReg rs)) (flagC t.cpsr)) t

/-- ORR, row 123 of the opcode table (R552). -/
def execTOrr (rs : LowReg) (rd : LowReg) (st : State) : Result :=
  thumbGuard (.tOrr rs rd) st fun t =>
    thumbAlu rd (alu .orr t.cpsr (t.reg (lowReg rd)) (t.reg (lowReg rs)) (flagC t.cpsr)) t

/-- MUL, row 124 of the opcode table (R556). -/
def execTMul (rs : LowReg) (rd : LowReg) (st : State) : Result :=
  thumbGuard (.tMul rs rd) st fun t =>
    mulOp true (lowReg rd) (t.reg (lowReg rd) * t.reg (lowReg rs)) t

/-- BIC, row 125 of the opcode table (R557). -/
def execTBic (rs : LowReg) (rd : LowReg) (st : State) : Result :=
  thumbGuard (.tBic rs rd) st fun t =>
    thumbAlu rd (alu .bic t.cpsr (t.reg (lowReg rd)) (t.reg (lowReg rs)) (flagC t.cpsr)) t

/-- MVN, row 126 of the opcode table (R558). -/
def execTMvn (rs : LowReg) (rd : LowReg) (st : State) : Result :=
  thumbGuard (.tMvn rs rd) st fun t =>
    thumbAlu rd (alu .mvn t.cpsr 0#32 (t.reg (lowReg rs)) (flagC t.cpsr)) t

/-- ADD, row 127 of the opcode table (R560). -/
def execTAddHi (h1 : Bool) (h2 : Bool) (rs : LowReg) (rd : LowReg) (st : State) : Result :=
  thumbGuard (.tAddHi h1 h2 rs rd) st fun t =>
    thumbWrite (hiReg h1 rd) (t.reg (hiReg h1 rd) + t.reg (hiReg h2 rs)) t

/-- CMP, row 128 of the opcode table (R561). -/
def execTCmpHi (h1 : Bool) (h2 : Bool) (rs : LowReg) (rd : LowReg) (st : State) : Result :=
  thumbGuard (.tCmpHi h1 h2 rs rd) st fun t =>
    thumbFlags (subtraction (t.reg (hiReg h1 rd)) (t.reg (hiReg h2 rs)) false) t

/-- MOV, row 129 of the opcode table (R562). -/
def execTMovHi (h1 : Bool) (h2 : Bool) (rs : LowReg) (rd : LowReg) (st : State) : Result :=
  thumbGuard (.tMovHi h1 h2 rs rd) st fun t =>
    thumbWrite (hiReg h1 rd) (t.reg (hiReg h2 rs)) t

/-- ADD, row 148 of the opcode table (R570). -/
def execTAddPc (rd : LowReg) (n : BitVec 8) (st : State) : Result :=
  thumbGuard (.tAddPc rd n) st fun t =>
    thumbWrite (lowReg rd) ((t.pcOperand &&& 0xFFFFFFFC#32) + ((n ++ 0#2).setWidth 32)) t

/-- ADD, row 149 of the opcode table (R571). -/
def execTAddSp (rd : LowReg) (n : BitVec 8) (st : State) : Result :=
  thumbGuard (.tAddSp rd n) st fun t =>
    thumbWrite (lowReg rd) (t.reg 13#4 + ((n ++ 0#2).setWidth 32)) t

/-- ADD, row 150 of the opcode table (R572). -/
def execTIncSp (n : BitVec 7) (st : State) : Result :=
  thumbGuard (.tIncSp n) st fun t =>
    thumbWrite 13#4 (t.reg 13#4 + ((n ++ 0#2).setWidth 32)) t

/-- SUB, row 151 of the opcode table (R573). -/
def execTDecSp (n : BitVec 7) (st : State) : Result :=
  thumbGuard (.tDecSp n) st fun t =>
    thumbWrite 13#4 (t.reg 13#4 - ((n ++ 0#2).setWidth 32)) t

end Sys2Proof.Machine
end

