-- ==== Sys2Proof/Machine/ThumbMemory.lean ====
section
/-!
DEFINITION. The meanings of Thumb loads, stores, BX, branches, SWI and UNDEFINED (48_thumb_memory_branch.md): one definition per row, over the shared bodies.
-/

namespace Sys2Proof.Machine

/-- BX, row 130 of the opcode table (R612). -/
def execTBx (h1 : Bool) (h2 : Bool) (rs : LowReg) (sbz : BitVec 3) (st : State) : Result :=
  thumbGuard (.tBx h1 h2 rs sbz) st fun t =>
    exchangeOp (t.reg (hiReg h2 rs)) t

/-- LDR, row 131 of the opcode table (R594). -/
def execTLdrPc (rd : LowReg) (n : BitVec 8) (st : State) : Result :=
  thumbGuard (.tLdrPc rd n) st fun t =>
    thumbLoadWord ((t.pcOperand &&& 0xFFFFFFFC#32) + ((n ++ 0#2).setWidth 32)) rd t

/-- STR, row 132 of the opcode table (R595). -/
def execTStrReg (ro : LowReg) (rb : LowReg) (rd : LowReg) (st : State) : Result :=
  thumbGuard (.tStrReg ro rb rd) st fun t =>
    thumbStoreWord (t.reg (lowReg rb) + t.reg (lowReg ro)) rd t

/-- STRH, row 133 of the opcode table (R599). -/
def execTStrhReg (ro : LowReg) (rb : LowReg) (rd : LowReg) (st : State) : Result :=
  thumbGuard (.tStrhReg ro rb rd) st fun t =>
    storeOp .half (t.reg (lowReg rb) + t.reg (lowReg ro)) (t.reg (lowReg rd)) false none t

/-- STRB, row 134 of the opcode table (R596). -/
def execTStrbReg (ro : LowReg) (rb : LowReg) (rd : LowReg) (st : State) : Result :=
  thumbGuard (.tStrbReg ro rb rd) st fun t =>
    storeOp .byte (t.reg (lowReg rb) + t.reg (lowReg ro)) (t.reg (lowReg rd)) false none t

/-- LDSB, row 135 of the opcode table (R601). -/
def execTLdsbReg (ro : LowReg) (rb : LowReg) (rd : LowReg) (st : State) : Result :=
  thumbGuard (.tLdsbReg ro rb rd) st fun t =>
    loadOp .sbyte (t.reg (lowReg rb) + t.reg (lowReg ro)) false none (lowReg rd) t

/-- LDR, row 136 of the opcode table (R597). -/
def execTLdrReg (ro : LowReg) (rb : LowReg) (rd : LowReg) (st : State) : Result :=
  thumbGuard (.tLdrReg ro rb rd) st fun t =>
    thumbLoadWord (t.reg (lowReg rb) + t.reg (lowReg ro)) rd t

/-- LDRH, row 137 of the opcode table (R600). -/
def execTLdrhReg (ro : LowReg) (rb : LowReg) (rd : LowReg) (st : State) : Result :=
  thumbGuard (.tLdrhReg ro rb rd) st fun t =>
    loadOp .half (t.reg (lowReg rb) + t.reg (lowReg ro)) false none (lowReg rd) t

/-- LDRB, row 138 of the opcode table (R598). -/
def execTLdrbReg (ro : LowReg) (rb : LowReg) (rd : LowReg) (st : State) : Result :=
  thumbGuard (.tLdrbReg ro rb rd) st fun t =>
    loadOp .byte (t.reg (lowReg rb) + t.reg (lowReg ro)) false none (lowReg rd) t

/-- LDSH, row 139 of the opcode table (R602). -/
def execTLdshReg (ro : LowReg) (rb : LowReg) (rd : LowReg) (st : State) : Result :=
  thumbGuard (.tLdshReg ro rb rd) st fun t =>
    loadOp .shalf (t.reg (lowReg rb) + t.reg (lowReg ro)) false none (lowReg rd) t

/-- STR, row 140 of the opcode table (R603). -/
def execTStrImm (n : BitVec 5) (rb : LowReg) (rd : LowReg) (st : State) : Result :=
  thumbGuard (.tStrImm n rb rd) st fun t =>
    thumbStoreWord (t.reg (lowReg rb) + ((n ++ 0#2).setWidth 32)) rd t

/-- LDR, row 141 of the opcode table (R604). -/
def execTLdrImm (n : BitVec 5) (rb : LowReg) (rd : LowReg) (st : State) : Result :=
  thumbGuard (.tLdrImm n rb rd) st fun t =>
    thumbLoadWord (t.reg (lowReg rb) + ((n ++ 0#2).setWidth 32)) rd t

/-- STRB, row 142 of the opcode table (R605). -/
def execTStrbImm (n : BitVec 5) (rb : LowReg) (rd : LowReg) (st : State) : Result :=
  thumbGuard (.tStrbImm n rb rd) st fun t =>
    storeOp .byte (t.reg (lowReg rb) + n.setWidth 32) (t.reg (lowReg rd)) false none t

/-- LDRB, row 143 of the opcode table (R606). -/
def execTLdrbImm (n : BitVec 5) (rb : LowReg) (rd : LowReg) (st : State) : Result :=
  thumbGuard (.tLdrbImm n rb rd) st fun t =>
    loadOp .byte (t.reg (lowReg rb) + n.setWidth 32) false none (lowReg rd) t

/-- STRH, row 144 of the opcode table (R607). -/
def execTStrhImm (n : BitVec 5) (rb : LowReg) (rd : LowReg) (st : State) : Result :=
  thumbGuard (.tStrhImm n rb rd) st fun t =>
    storeOp .half (t.reg (lowReg rb) + (n ++ 0#1).setWidth 32) (t.reg (lowReg rd)) false none t

/-- LDRH, row 145 of the opcode table (R608). -/
def execTLdrhImm (n : BitVec 5) (rb : LowReg) (rd : LowReg) (st : State) : Result :=
  thumbGuard (.tLdrhImm n rb rd) st fun t =>
    loadOp .half (t.reg (lowReg rb) + (n ++ 0#1).setWidth 32) false none (lowReg rd) t

/-- STR, row 146 of the opcode table (R609). -/
def execTStrSp (rd : LowReg) (n : BitVec 8) (st : State) : Result :=
  thumbGuard (.tStrSp rd n) st fun t =>
    thumbStoreWord (t.reg 13#4 + ((n ++ 0#2).setWidth 32)) rd t

/-- LDR, row 147 of the opcode table (R610). -/
def execTLdrSp (rd : LowReg) (n : BitVec 8) (st : State) : Result :=
  thumbGuard (.tLdrSp rd n) st fun t =>
    thumbLoadWord (t.reg 13#4 + ((n ++ 0#2).setWidth 32)) rd t

/-- PUSH, row 152 of the opcode table (R620). -/
def execTPush (lr : Bool) (list : BitVec 8) (st : State) : Result :=
  thumbGuard (.tPush lr list) st fun t =>
    pushOp lr list t

/-- POP, row 153 of the opcode table (R621). -/
def execTPop (pc : Bool) (list : BitVec 8) (st : State) : Result :=
  thumbGuard (.tPop pc list) st fun t =>
    popOp pc list t

/-- UNDEFINED, row 154 of the opcode table (R220 (c)). -/
def execTUnd1011 (body : BitVec 12) (st : State) : Result :=
  thumbGuard (.tUnd1011 body) st fun t =>
    undefinedOp t

/-- STMIA, row 155 of the opcode table (R629). -/
def execTStmia (rb : LowReg) (list : BitVec 8) (st : State) : Result :=
  thumbGuard (.tStmia rb list) st fun t =>
    stmiaOp rb list t

/-- LDMIA, row 156 of the opcode table (R630). -/
def execTLdmia (rb : LowReg) (list : BitVec 8) (st : State) : Result :=
  thumbGuard (.tLdmia rb list) st fun t =>
    ldmiaOp rb list t

/-- UNDEFINED, row 157 of the opcode table (R220 (a)). -/
def execTUndDE (n : BitVec 8) (st : State) : Result :=
  thumbGuard (.tUndDE n) st fun t =>
    undefinedOp t

/-- SWI, row 158 of the opcode table (R636). -/
def execTSwi (n : BitVec 8) (st : State) : Result :=
  thumbGuard (.tSwi n) st fun t =>
    swiOp t

/-- B<cond>, row 159 of the opcode table (R634). -/
def execTBCond (c : Cond) (n : BitVec 8) (st : State) : Result :=
  thumbGuard (.tBCond c n) st fun t =>
    thumbCondBranchOp c n t

/-- B, row 160 of the opcode table (R638). -/
def execTB (n : BitVec 11) (st : State) : Result :=
  thumbGuard (.tB n) st fun t =>
    thumbBranchOp n t

/-- UNDEFINED, row 161 of the opcode table (R220 (b)). -/
def execTUnd11101 (n : BitVec 11) (st : State) : Result :=
  thumbGuard (.tUnd11101 n) st fun t =>
    undefinedOp t

/-- BL, row 162 of the opcode table (R640). -/
def execTBl1 (n : BitVec 11) (st : State) : Result :=
  thumbGuard (.tBl1 n) st fun t =>
    blFirstOp n t

/-- BL, row 163 of the opcode table (R641). -/
def execTBl2 (n : BitVec 11) (st : State) : Result :=
  thumbGuard (.tBl2 n) st fun t =>
    blSecondOp n t

end Sys2Proof.Machine
end

