-- ==== Sys2Proof/Machine/Dispatch.lean ====
section
/-! DEFINITION. The dispatch: one arm per constructor of Instr, in the order of spec/opcode_table.json, each one call of its meaning. -/

namespace Sys2Proof.Machine

def exec (i : Instr) (s : State) : Host.Outcome State Fault Refusal :=
  match i with
  | .mul c f rd sbz rs rm => Sys2Proof.Machine.execMul c f rd sbz rs rm s
  | .mla c f rd rn rs rm => Sys2Proof.Machine.execMla c f rd rn rs rm s
  | .umull c f rdHi rdLo rs rm => Sys2Proof.Machine.execUmull c f rdHi rdLo rs rm s
  | .umlal c f rdHi rdLo rs rm => Sys2Proof.Machine.execUmlal c f rdHi rdLo rs rm s
  | .smull c f rdHi rdLo rs rm => Sys2Proof.Machine.execSmull c f rdHi rdLo rs rm s
  | .smlal c f rdHi rdLo rs rm => Sys2Proof.Machine.execSmlal c f rdHi rdLo rs rm s
  | .undArith c body => Sys2Proof.Machine.execUndArith c body s
  | .swp c rn rd sbz rm => Sys2Proof.Machine.execSwp c rn rd sbz rm s
  | .swpb c rn rd sbz rm => Sys2Proof.Machine.execSwpb c rn rd sbz rm s
  | .undLsA c body => Sys2Proof.Machine.execUndLsA c body s
  | .strh c m => Sys2Proof.Machine.execStrh c m s
  | .ldrh c m => Sys2Proof.Machine.execLdrh c m s
  | .ldrsb c m => Sys2Proof.Machine.execLdrsb c m s
  | .ldrsh c m => Sys2Proof.Machine.execLdrsh c m s
  | .undLsB c body => Sys2Proof.Machine.execUndLsB c body s
  | .mrs c r sbo rd sbzHi sbzLo => Sys2Proof.Machine.execMrs c r sbo rd sbzHi sbzLo s
  | .msrReg c r mask sbo sbz rm => Sys2Proof.Machine.execMsrReg c r mask sbo sbz rm s
  | .bx c sbo rm => Sys2Proof.Machine.execBx c sbo rm s
  | .undCtlReg c body => Sys2Proof.Machine.execUndCtlReg c body s
  | .andShiftImm c f rn rd o => Sys2Proof.Machine.execAndShiftImm c f rn rd o s
  | .andShiftReg c f rn rd o => Sys2Proof.Machine.execAndShiftReg c f rn rd o s
  | .eorShiftImm c f rn rd o => Sys2Proof.Machine.execEorShiftImm c f rn rd o s
  | .eorShiftReg c f rn rd o => Sys2Proof.Machine.execEorShiftReg c f rn rd o s
  | .subShiftImm c f rn rd o => Sys2Proof.Machine.execSubShiftImm c f rn rd o s
  | .subShiftReg c f rn rd o => Sys2Proof.Machine.execSubShiftReg c f rn rd o s
  | .rsbShiftImm c f rn rd o => Sys2Proof.Machine.execRsbShiftImm c f rn rd o s
  | .rsbShiftReg c f rn rd o => Sys2Proof.Machine.execRsbShiftReg c f rn rd o s
  | .addShiftImm c f rn rd o => Sys2Proof.Machine.execAddShiftImm c f rn rd o s
  | .addShiftReg c f rn rd o => Sys2Proof.Machine.execAddShiftReg c f rn rd o s
  | .adcShiftImm c f rn rd o => Sys2Proof.Machine.execAdcShiftImm c f rn rd o s
  | .adcShiftReg c f rn rd o => Sys2Proof.Machine.execAdcShiftReg c f rn rd o s
  | .sbcShiftImm c f rn rd o => Sys2Proof.Machine.execSbcShiftImm c f rn rd o s
  | .sbcShiftReg c f rn rd o => Sys2Proof.Machine.execSbcShiftReg c f rn rd o s
  | .rscShiftImm c f rn rd o => Sys2Proof.Machine.execRscShiftImm c f rn rd o s
  | .rscShiftReg c f rn rd o => Sys2Proof.Machine.execRscShiftReg c f rn rd o s
  | .tstShiftImm c rn sbz o => Sys2Proof.Machine.execTstShiftImm c rn sbz o s
  | .tstShiftReg c rn sbz o => Sys2Proof.Machine.execTstShiftReg c rn sbz o s
  | .teqShiftImm c rn sbz o => Sys2Proof.Machine.execTeqShiftImm c rn sbz o s
  | .teqShiftReg c rn sbz o => Sys2Proof.Machine.execTeqShiftReg c rn sbz o s
  | .cmpShiftImm c rn sbz o => Sys2Proof.Machine.execCmpShiftImm c rn sbz o s
  | .cmpShiftReg c rn sbz o => Sys2Proof.Machine.execCmpShiftReg c rn sbz o s
  | .cmnShiftImm c rn sbz o => Sys2Proof.Machine.execCmnShiftImm c rn sbz o s
  | .cmnShiftReg c rn sbz o => Sys2Proof.Machine.execCmnShiftReg c rn sbz o s
  | .orrShiftImm c f rn rd o => Sys2Proof.Machine.execOrrShiftImm c f rn rd o s
  | .orrShiftReg c f rn rd o => Sys2Proof.Machine.execOrrShiftReg c f rn rd o s
  | .movShiftImm c f sbz rd o => Sys2Proof.Machine.execMovShiftImm c f sbz rd o s
  | .movShiftReg c f sbz rd o => Sys2Proof.Machine.execMovShiftReg c f sbz rd o s
  | .bicShiftImm c f rn rd o => Sys2Proof.Machine.execBicShiftImm c f rn rd o s
  | .bicShiftReg c f rn rd o => Sys2Proof.Machine.execBicShiftReg c f rn rd o s
  | .mvnShiftImm c f sbz rd o => Sys2Proof.Machine.execMvnShiftImm c f sbz rd o s
  | .mvnShiftReg c f sbz rd o => Sys2Proof.Machine.execMvnShiftReg c f sbz rd o s
  | .msrImm c r mask sbo o => Sys2Proof.Machine.execMsrImm c r mask sbo o s
  | .undCtlImm c body => Sys2Proof.Machine.execUndCtlImm c body s
  | .andImm c f rn rd o => Sys2Proof.Machine.execAndImm c f rn rd o s
  | .eorImm c f rn rd o => Sys2Proof.Machine.execEorImm c f rn rd o s
  | .subImm c f rn rd o => Sys2Proof.Machine.execSubImm c f rn rd o s
  | .rsbImm c f rn rd o => Sys2Proof.Machine.execRsbImm c f rn rd o s
  | .addImm c f rn rd o => Sys2Proof.Machine.execAddImm c f rn rd o s
  | .adcImm c f rn rd o => Sys2Proof.Machine.execAdcImm c f rn rd o s
  | .sbcImm c f rn rd o => Sys2Proof.Machine.execSbcImm c f rn rd o s
  | .rscImm c f rn rd o => Sys2Proof.Machine.execRscImm c f rn rd o s
  | .tstImm c rn sbz o => Sys2Proof.Machine.execTstImm c rn sbz o s
  | .teqImm c rn sbz o => Sys2Proof.Machine.execTeqImm c rn sbz o s
  | .cmpImm c rn sbz o => Sys2Proof.Machine.execCmpImm c rn sbz o s
  | .cmnImm c rn sbz o => Sys2Proof.Machine.execCmnImm c rn sbz o s
  | .orrImm c f rn rd o => Sys2Proof.Machine.execOrrImm c f rn rd o s
  | .movImm c f sbz rd o => Sys2Proof.Machine.execMovImm c f sbz rd o s
  | .bicImm c f rn rd o => Sys2Proof.Machine.execBicImm c f rn rd o s
  | .mvnImm c f sbz rd o => Sys2Proof.Machine.execMvnImm c f sbz rd o s
  | .strtImm c u rn rd imm => Sys2Proof.Machine.execStrtImm c u rn rd imm s
  | .ldrtImm c u rn rd imm => Sys2Proof.Machine.execLdrtImm c u rn rd imm s
  | .strbtImm c u rn rd imm => Sys2Proof.Machine.execStrbtImm c u rn rd imm s
  | .ldrbtImm c u rn rd imm => Sys2Proof.Machine.execLdrbtImm c u rn rd imm s
  | .strImm c a imm => Sys2Proof.Machine.execStrImm c a imm s
  | .ldrImm c a imm => Sys2Proof.Machine.execLdrImm c a imm s
  | .strbImm c a imm => Sys2Proof.Machine.execStrbImm c a imm s
  | .ldrbImm c a imm => Sys2Proof.Machine.execLdrbImm c a imm s
  | .undSpace c body => Sys2Proof.Machine.execUndSpace c body s
  | .strtReg c u rn rd o => Sys2Proof.Machine.execStrtReg c u rn rd o s
  | .ldrtReg c u rn rd o => Sys2Proof.Machine.execLdrtReg c u rn rd o s
  | .strbtReg c u rn rd o => Sys2Proof.Machine.execStrbtReg c u rn rd o s
  | .ldrbtReg c u rn rd o => Sys2Proof.Machine.execLdrbtReg c u rn rd o s
  | .strReg c a o => Sys2Proof.Machine.execStrReg c a o s
  | .ldrReg c a o => Sys2Proof.Machine.execLdrReg c a o s
  | .strbReg c a o => Sys2Proof.Machine.execStrbReg c a o s
  | .ldrbReg c a o => Sys2Proof.Machine.execLdrbReg c a o s
  | .stm1 c p u w rn list => Sys2Proof.Machine.execStm1 c p u w rn list s
  | .ldm1 c p u w rn list => Sys2Proof.Machine.execLdm1 c p u w rn list s
  | .stm2 c p u w rn list => Sys2Proof.Machine.execStm2 c p u w rn list s
  | .ldm2 c p u w rn list => Sys2Proof.Machine.execLdm2 c p u w rn list s
  | .ldm3 c p u w rn list => Sys2Proof.Machine.execLdm3 c p u w rn list s
  | .b c off => Sys2Proof.Machine.execB c off s
  | .bl c off => Sys2Proof.Machine.execBl c off s
  | .undCop c body => Sys2Proof.Machine.execUndCop c body s
  | .stc c m => Sys2Proof.Machine.execStc c m s
  | .ldc c m => Sys2Proof.Machine.execLdc c m s
  | .cdp c o => Sys2Proof.Machine.execCdp c o s
  | .mcr c o => Sys2Proof.Machine.execMcr c o s
  | .mrc c o => Sys2Proof.Machine.execMrc c o s
  | .swi c imm => Sys2Proof.Machine.execSwi c imm s
  | .tLslImm n rs rd => Sys2Proof.Machine.execTLslImm n rs rd s
  | .tLsrImm n rs rd => Sys2Proof.Machine.execTLsrImm n rs rd s
  | .tAsrImm n rs rd => Sys2Proof.Machine.execTAsrImm n rs rd s
  | .tAddReg rn rs rd => Sys2Proof.Machine.execTAddReg rn rs rd s
  | .tSubReg rn rs rd => Sys2Proof.Machine.execTSubReg rn rs rd s
  | .tAddImm3 n rs rd => Sys2Proof.Machine.execTAddImm3 n rs rd s
  | .tSubImm3 n rs rd => Sys2Proof.Machine.execTSubImm3 n rs rd s
  | .tMovImm rd n => Sys2Proof.Machine.execTMovImm rd n s
  | .tCmpImm rd n => Sys2Proof.Machine.execTCmpImm rd n s
  | .tAddImm rd n => Sys2Proof.Machine.execTAddImm rd n s
  | .tSubImm rd n => Sys2Proof.Machine.execTSubImm rd n s
  | .tAnd rs rd => Sys2Proof.Machine.execTAnd rs rd s
  | .tEor rs rd => Sys2Proof.Machine.execTEor rs rd s
  | .tLsl rs rd => Sys2Proof.Machine.execTLsl rs rd s
  | .tLsr rs rd => Sys2Proof.Machine.execTLsr rs rd s
  | .tAsr rs rd => Sys2Proof.Machine.execTAsr rs rd s
  | .tAdc rs rd => Sys2Proof.Machine.execTAdc rs rd s
  | .tSbc rs rd => Sys2Proof.Machine.execTSbc rs rd s
  | .tRor rs rd => Sys2Proof.Machine.execTRor rs rd s
  | .tTst rs rd => Sys2Proof.Machine.execTTst rs rd s
  | .tNeg rs rd => Sys2Proof.Machine.execTNeg rs rd s
  | .tCmp rs rd => Sys2Proof.Machine.execTCmp rs rd s
  | .tCmn rs rd => Sys2Proof.Machine.execTCmn rs rd s
  | .tOrr rs rd => Sys2Proof.Machine.execTOrr rs rd s
  | .tMul rs rd => Sys2Proof.Machine.execTMul rs rd s
  | .tBic rs rd => Sys2Proof.Machine.execTBic rs rd s
  | .tMvn rs rd => Sys2Proof.Machine.execTMvn rs rd s
  | .tAddHi h1 h2 rs rd => Sys2Proof.Machine.execTAddHi h1 h2 rs rd s
  | .tCmpHi h1 h2 rs rd => Sys2Proof.Machine.execTCmpHi h1 h2 rs rd s
  | .tMovHi h1 h2 rs rd => Sys2Proof.Machine.execTMovHi h1 h2 rs rd s
  | .tBx h1 h2 rs sbz => Sys2Proof.Machine.execTBx h1 h2 rs sbz s
  | .tLdrPc rd n => Sys2Proof.Machine.execTLdrPc rd n s
  | .tStrReg ro rb rd => Sys2Proof.Machine.execTStrReg ro rb rd s
  | .tStrhReg ro rb rd => Sys2Proof.Machine.execTStrhReg ro rb rd s
  | .tStrbReg ro rb rd => Sys2Proof.Machine.execTStrbReg ro rb rd s
  | .tLdsbReg ro rb rd => Sys2Proof.Machine.execTLdsbReg ro rb rd s
  | .tLdrReg ro rb rd => Sys2Proof.Machine.execTLdrReg ro rb rd s
  | .tLdrhReg ro rb rd => Sys2Proof.Machine.execTLdrhReg ro rb rd s
  | .tLdrbReg ro rb rd => Sys2Proof.Machine.execTLdrbReg ro rb rd s
  | .tLdshReg ro rb rd => Sys2Proof.Machine.execTLdshReg ro rb rd s
  | .tStrImm n rb rd => Sys2Proof.Machine.execTStrImm n rb rd s
  | .tLdrImm n rb rd => Sys2Proof.Machine.execTLdrImm n rb rd s
  | .tStrbImm n rb rd => Sys2Proof.Machine.execTStrbImm n rb rd s
  | .tLdrbImm n rb rd => Sys2Proof.Machine.execTLdrbImm n rb rd s
  | .tStrhImm n rb rd => Sys2Proof.Machine.execTStrhImm n rb rd s
  | .tLdrhImm n rb rd => Sys2Proof.Machine.execTLdrhImm n rb rd s
  | .tStrSp rd n => Sys2Proof.Machine.execTStrSp rd n s
  | .tLdrSp rd n => Sys2Proof.Machine.execTLdrSp rd n s
  | .tAddPc rd n => Sys2Proof.Machine.execTAddPc rd n s
  | .tAddSp rd n => Sys2Proof.Machine.execTAddSp rd n s
  | .tIncSp n => Sys2Proof.Machine.execTIncSp n s
  | .tDecSp n => Sys2Proof.Machine.execTDecSp n s
  | .tPush lr list => Sys2Proof.Machine.execTPush lr list s
  | .tPop pc list => Sys2Proof.Machine.execTPop pc list s
  | .tUnd1011 body => Sys2Proof.Machine.execTUnd1011 body s
  | .tStmia rb list => Sys2Proof.Machine.execTStmia rb list s
  | .tLdmia rb list => Sys2Proof.Machine.execTLdmia rb list s
  | .tUndDE n => Sys2Proof.Machine.execTUndDE n s
  | .tSwi n => Sys2Proof.Machine.execTSwi n s
  | .tBCond c n => Sys2Proof.Machine.execTBCond c n s
  | .tB n => Sys2Proof.Machine.execTB n s
  | .tUnd11101 n => Sys2Proof.Machine.execTUnd11101 n s
  | .tBl1 n => Sys2Proof.Machine.execTBl1 n s
  | .tBl2 n => Sys2Proof.Machine.execTBl2 n s

end Sys2Proof.Machine
end

