-- ==== Sys2Proof/Machine/Hazards.lean ====
section
/-!
DEFINITION. The one software-visible register hazard (70_reset_and_hazards.md R921): which general registers an instruction
names, and whether one of them is banked in the current mode.
-/

namespace Sys2Proof.Machine

/-- The registers of mode 3: the base, the transfer register and, without an immediate, the offset register. -/
def Mode3.named (m : Mode3) : List Reg := if m.i then [m.rn, m.rd] else [m.rn, m.rd, m.lo]

/-- The general registers an ARM instruction reads or writes by name or implicitly in the current mode. LDM (2) and STM (2) name only their base:
their list is in the User bank. Thumb instructions cannot follow LDM (2) or STM (2) directly and have no entry. -/
def Instr.named : Instr → List Reg
  | .mul _ _ rd _ rs rm => [rd, rs, rm]
  | .mla _ _ rd rn rs rm => [rn, rd, rs, rm]
  | .umull _ _ rdHi rdLo rs rm => [rdHi, rdLo, rs, rm]
  | .umlal _ _ rdHi rdLo rs rm => [rdHi, rdLo, rs, rm]
  | .smull _ _ rdHi rdLo rs rm => [rdHi, rdLo, rs, rm]
  | .smlal _ _ rdHi rdLo rs rm => [rdHi, rdLo, rs, rm]
  | .undArith _ _ => []
  | .swp _ rn rd _ rm => [rn, rd, rm]
  | .swpb _ rn rd _ rm => [rn, rd, rm]
  | .undLsA _ _ => []
  | .strh _ m => Mode3.named m
  | .ldrh _ m => Mode3.named m
  | .ldrsb _ m => Mode3.named m
  | .ldrsh _ m => Mode3.named m
  | .undLsB _ _ => []
  | .mrs _ _ _ rd _ _ => [rd]
  | .msrReg _ _ _ _ _ rm => [rm]
  | .bx _ _ rm => [rm]
  | .undCtlReg _ _ => []
  | .andShiftImm _ _ rn rd o => [rn, rd, o.rm]
  | .andShiftReg _ _ rn rd o => [rn, rd, o.rs, o.rm]
  | .eorShiftImm _ _ rn rd o => [rn, rd, o.rm]
  | .eorShiftReg _ _ rn rd o => [rn, rd, o.rs, o.rm]
  | .subShiftImm _ _ rn rd o => [rn, rd, o.rm]
  | .subShiftReg _ _ rn rd o => [rn, rd, o.rs, o.rm]
  | .rsbShiftImm _ _ rn rd o => [rn, rd, o.rm]
  | .rsbShiftReg _ _ rn rd o => [rn, rd, o.rs, o.rm]
  | .addShiftImm _ _ rn rd o => [rn, rd, o.rm]
  | .addShiftReg _ _ rn rd o => [rn, rd, o.rs, o.rm]
  | .adcShiftImm _ _ rn rd o => [rn, rd, o.rm]
  | .adcShiftReg _ _ rn rd o => [rn, rd, o.rs, o.rm]
  | .sbcShiftImm _ _ rn rd o => [rn, rd, o.rm]
  | .sbcShiftReg _ _ rn rd o => [rn, rd, o.rs, o.rm]
  | .rscShiftImm _ _ rn rd o => [rn, rd, o.rm]
  | .rscShiftReg _ _ rn rd o => [rn, rd, o.rs, o.rm]
  | .tstShiftImm _ rn _ o => [rn, o.rm]
  | .tstShiftReg _ rn _ o => [rn, o.rs, o.rm]
  | .teqShiftImm _ rn _ o => [rn, o.rm]
  | .teqShiftReg _ rn _ o => [rn, o.rs, o.rm]
  | .cmpShiftImm _ rn _ o => [rn, o.rm]
  | .cmpShiftReg _ rn _ o => [rn, o.rs, o.rm]
  | .cmnShiftImm _ rn _ o => [rn, o.rm]
  | .cmnShiftReg _ rn _ o => [rn, o.rs, o.rm]
  | .orrShiftImm _ _ rn rd o => [rn, rd, o.rm]
  | .orrShiftReg _ _ rn rd o => [rn, rd, o.rs, o.rm]
  | .movShiftImm _ _ _ rd o => [rd, o.rm]
  | .movShiftReg _ _ _ rd o => [rd, o.rs, o.rm]
  | .bicShiftImm _ _ rn rd o => [rn, rd, o.rm]
  | .bicShiftReg _ _ rn rd o => [rn, rd, o.rs, o.rm]
  | .mvnShiftImm _ _ _ rd o => [rd, o.rm]
  | .mvnShiftReg _ _ _ rd o => [rd, o.rs, o.rm]
  | .msrImm _ _ _ _ _ => []
  | .undCtlImm _ _ => []
  | .andImm _ _ rn rd _ => [rn, rd]
  | .eorImm _ _ rn rd _ => [rn, rd]
  | .subImm _ _ rn rd _ => [rn, rd]
  | .rsbImm _ _ rn rd _ => [rn, rd]
  | .addImm _ _ rn rd _ => [rn, rd]
  | .adcImm _ _ rn rd _ => [rn, rd]
  | .sbcImm _ _ rn rd _ => [rn, rd]
  | .rscImm _ _ rn rd _ => [rn, rd]
  | .tstImm _ rn _ _ => [rn]
  | .teqImm _ rn _ _ => [rn]
  | .cmpImm _ rn _ _ => [rn]
  | .cmnImm _ rn _ _ => [rn]
  | .orrImm _ _ rn rd _ => [rn, rd]
  | .movImm _ _ _ rd _ => [rd]
  | .bicImm _ _ rn rd _ => [rn, rd]
  | .mvnImm _ _ _ rd _ => [rd]
  | .strtImm _ _ rn rd _ => [rn, rd]
  | .ldrtImm _ _ rn rd _ => [rn, rd]
  | .strbtImm _ _ rn rd _ => [rn, rd]
  | .ldrbtImm _ _ rn rd _ => [rn, rd]
  | .strImm _ a _ => [a.rn, a.rd]
  | .ldrImm _ a _ => [a.rn, a.rd]
  | .strbImm _ a _ => [a.rn, a.rd]
  | .ldrbImm _ a _ => [a.rn, a.rd]
  | .undSpace _ _ => []
  | .strtReg _ _ rn rd o => [rn, rd, o.rm]
  | .ldrtReg _ _ rn rd o => [rn, rd, o.rm]
  | .strbtReg _ _ rn rd o => [rn, rd, o.rm]
  | .ldrbtReg _ _ rn rd o => [rn, rd, o.rm]
  | .strReg _ a o => [a.rn, a.rd, o.rm]
  | .ldrReg _ a o => [a.rn, a.rd, o.rm]
  | .strbReg _ a o => [a.rn, a.rd, o.rm]
  | .ldrbReg _ a o => [a.rn, a.rd, o.rm]
  | .stm1 _ _ _ _ rn list => rn :: regList list
  | .ldm1 _ _ _ _ rn list => rn :: regList list
  | .stm2 _ _ _ _ rn _ => [rn]
  | .ldm2 _ _ _ _ rn _ => [rn]
  | .ldm3 _ _ _ _ rn list => rn :: regList list
  | .b _ _ => []
  | .bl _ _ => [14#4]
  | .undCop _ _ => []
  | .stc _ m => [m.rn]
  | .ldc _ m => [m.rn]
  | .cdp _ _ => []
  | .mcr _ o => [o.rd]
  | .mrc _ o => [o.rd]
  | .swi _ _ => []
  | .tLslImm _ _ _ => []
  | .tLsrImm _ _ _ => []
  | .tAsrImm _ _ _ => []
  | .tAddReg _ _ _ => []
  | .tSubReg _ _ _ => []
  | .tAddImm3 _ _ _ => []
  | .tSubImm3 _ _ _ => []
  | .tMovImm _ _ => []
  | .tCmpImm _ _ => []
  | .tAddImm _ _ => []
  | .tSubImm _ _ => []
  | .tAnd _ _ => []
  | .tEor _ _ => []
  | .tLsl _ _ => []
  | .tLsr _ _ => []
  | .tAsr _ _ => []
  | .tAdc _ _ => []
  | .tSbc _ _ => []
  | .tRor _ _ => []
  | .tTst _ _ => []
  | .tNeg _ _ => []
  | .tCmp _ _ => []
  | .tCmn _ _ => []
  | .tOrr _ _ => []
  | .tMul _ _ => []
  | .tBic _ _ => []
  | .tMvn _ _ => []
  | .tAddHi _ _ _ _ => []
  | .tCmpHi _ _ _ _ => []
  | .tMovHi _ _ _ _ => []
  | .tBx _ _ _ _ => []
  | .tLdrPc _ _ => []
  | .tStrReg _ _ _ => []
  | .tStrhReg _ _ _ => []
  | .tStrbReg _ _ _ => []
  | .tLdsbReg _ _ _ => []
  | .tLdrReg _ _ _ => []
  | .tLdrhReg _ _ _ => []
  | .tLdrbReg _ _ _ => []
  | .tLdshReg _ _ _ => []
  | .tStrImm _ _ _ => []
  | .tLdrImm _ _ _ => []
  | .tStrbImm _ _ _ => []
  | .tLdrbImm _ _ _ => []
  | .tStrhImm _ _ _ => []
  | .tLdrhImm _ _ _ => []
  | .tStrSp _ _ => []
  | .tLdrSp _ _ => []
  | .tAddPc _ _ => []
  | .tAddSp _ _ => []
  | .tIncSp _ => []
  | .tDecSp _ => []
  | .tPush _ _ => []
  | .tPop _ _ => []
  | .tUnd1011 _ => []
  | .tStmia _ _ => []
  | .tLdmia _ _ => []
  | .tUndDE _ => []
  | .tSwi _ => []
  | .tBCond _ _ => []
  | .tB _ => []
  | .tUnd11101 _ => []
  | .tBl1 _ => []
  | .tBl2 _ => []

/-- Is the register banked in this mode: kept elsewhere than the User bank's (10_state.md R40)? -/
def banked (m : BitVec 5) (r : Reg) : Bool := r != 15#4 && bankIndex m r != bankIndex usrMode r

/-- The bank whose registers the instruction names as it executes here: the current one, but for SWI, the UNDEFINED rows and a
coprocessor instruction answered ABSENT, which write R14 of the mode they enter (45_arm_branch_exception.md R440, R445). DESIGN CHOICE
(log 17): one that waits first and is answered ABSENT later is not stopped. -/
def State.namedIn (s : State) (i : Instr) : List (BitVec 5 × Reg) :=
  let here := (Instr.named i).map fun r => (s.mode, r)
  match i with
  | .swi _ _ => [(svcMode, 14#4)]
  | .undArith _ _ | .undLsA _ _ | .undLsB _ _ | .undCtlReg _ _ | .undCtlImm _ _ | .undSpace _ _ | .undCop _ _ => [(undMode, 14#4)]
  | _ => if offered i && s.cop.replies.head?.all (· == .absent) then (undMode, 14#4) :: here else here

/-- The hazard of R921: the instruction before was LDM (2) or STM (2), and this one executes and names a banked register. -/
def userBankHazard (i : Instr) (s : State) : Bool :=
  s.pipe.userBank && passes i s && (s.namedIn i).any fun x => banked x.1 x.2

/-- The hazard flag concerns one instruction only, the transfer of the step before is over, and the outputs and the list of written cells are those of the instruction that
begins. -/
def State.begin (s : State) : State :=
  { s with
    pipe := { s.pipe with userBank := false }
    port := s.port.retained
    pass := false
    lateCancel := false
    wrote := [] }

end Sys2Proof.Machine
end

