-- ==== Sys2Proof/Machine/Debug.lean ====
section
/-!
DEFINITION. Debug state: entry (61_debug.md R746 to R758), the instructions that may be scanned in (R772), debug-speed and
system-speed steps (R771, R782 to R786), and exit (R787).
-/

namespace Sys2Proof.Machine

/-- Why the core enters debug state (R740, R820). DESIGN CHOICE (log 44): where causes coincide one is recorded, and a watchpoint
still on its way is dropped: a breakpoint mark on the instruction behind a watchpointed access counts as a breakpoint (R755), and
a request at the boundary before that instruction enters at once (R752, R757). -/
inductive DebugCause where
  | breakpoint | watchpoint | request | singleStep
deriving DecidableEq, Repr

/-- The PC on entry: R15 then reads `resume` plus five addresses for the first instruction executed, one more for each after it
(R786, log 25). -/
def State.debugPc (s : State) : Word := if bitT s.cpsr then s.pc + 6#32 else s.pc + 12#32

/-- What SYSSPEED shows after entry: LOW for a breakpoint, HIGH for a watchpoint, free otherwise (R756, U41). -/
def DebugCause.sysspeed (c : DebugCause) (free : Bool) : Bool :=
  match c with
  | .breakpoint => false
  | .watchpoint => true
  | .request | .singleStep => free

/-- `enter_debug(cause, resume)` with the PC at `resume` (R758): no register changes, the prefetch queue is discarded, nothing is
executed, and a withdrawn interrupt request is forgotten (R760, 10_state.md R78, log 22). DESIGN CHOICE (log 17): entry between LDM (2)
or STM (2) and the next instruction clears the hazard of R921. -/
def State.enterDebug (s : State) (c : DebugCause) : State :=
  { s.noExec with
    pc := s.debugPc
    pins := s.pins.forgotten
    pipe := Pipe.clear
    dbg := { s.dbg.fresh with inDebug := true, sysspeedBit := DebugCause.sysspeed c s.freeBit }
    draws := s.draws + 1 }

/-- May the instruction be scanned into the pipeline in debug state (R772, R448)? -/
def Instr.debugLegal : Instr → Bool
  | .mul _ _ _ _ _ _ => false
  | .mla _ _ _ _ _ _ => false
  | .umull _ _ _ _ _ _ => false
  | .umlal _ _ _ _ _ _ => false
  | .smull _ _ _ _ _ _ => false
  | .smlal _ _ _ _ _ _ => false
  | .undArith _ _ => false
  | .swp _ _ _ _ _ => false
  | .swpb _ _ _ _ _ => false
  | .undLsA _ _ => false
  | .strh _ _ => true
  | .ldrh _ _ => true
  | .ldrsb _ _ => true
  | .ldrsh _ _ => true
  | .undLsB _ _ => false
  | .mrs _ _ _ _ _ _ => true
  | .msrReg _ _ _ _ _ _ => true
  | .bx _ _ _ => true
  | .undCtlReg _ _ => false
  | .andShiftImm _ _ _ _ _ => true
  | .andShiftReg _ _ _ _ _ => true
  | .eorShiftImm _ _ _ _ _ => true
  | .eorShiftReg _ _ _ _ _ => true
  | .subShiftImm _ _ _ _ _ => true
  | .subShiftReg _ _ _ _ _ => true
  | .rsbShiftImm _ _ _ _ _ => true
  | .rsbShiftReg _ _ _ _ _ => true
  | .addShiftImm _ _ _ _ _ => true
  | .addShiftReg _ _ _ _ _ => true
  | .adcShiftImm _ _ _ _ _ => true
  | .adcShiftReg _ _ _ _ _ => true
  | .sbcShiftImm _ _ _ _ _ => true
  | .sbcShiftReg _ _ _ _ _ => true
  | .rscShiftImm _ _ _ _ _ => true
  | .rscShiftReg _ _ _ _ _ => true
  | .tstShiftImm _ _ _ _ => true
  | .tstShiftReg _ _ _ _ => true
  | .teqShiftImm _ _ _ _ => true
  | .teqShiftReg _ _ _ _ => true
  | .cmpShiftImm _ _ _ _ => true
  | .cmpShiftReg _ _ _ _ => true
  | .cmnShiftImm _ _ _ _ => true
  | .cmnShiftReg _ _ _ _ => true
  | .orrShiftImm _ _ _ _ _ => true
  | .orrShiftReg _ _ _ _ _ => true
  | .movShiftImm _ _ _ _ _ => true
  | .movShiftReg _ _ _ _ _ => true
  | .bicShiftImm _ _ _ _ _ => true
  | .bicShiftReg _ _ _ _ _ => true
  | .mvnShiftImm _ _ _ _ _ => true
  | .mvnShiftReg _ _ _ _ _ => true
  | .msrImm _ _ _ _ _ => true
  | .undCtlImm _ _ => false
  | .andImm _ _ _ _ _ => true
  | .eorImm _ _ _ _ _ => true
  | .subImm _ _ _ _ _ => true
  | .rsbImm _ _ _ _ _ => true
  | .addImm _ _ _ _ _ => true
  | .adcImm _ _ _ _ _ => true
  | .sbcImm _ _ _ _ _ => true
  | .rscImm _ _ _ _ _ => true
  | .tstImm _ _ _ _ => true
  | .teqImm _ _ _ _ => true
  | .cmpImm _ _ _ _ => true
  | .cmnImm _ _ _ _ => true
  | .orrImm _ _ _ _ _ => true
  | .movImm _ _ _ _ _ => true
  | .bicImm _ _ _ _ _ => true
  | .mvnImm _ _ _ _ _ => true
  | .strtImm _ _ _ _ _ => true
  | .ldrtImm _ _ _ _ _ => true
  | .strbtImm _ _ _ _ _ => true
  | .ldrbtImm _ _ _ _ _ => true
  | .strImm _ _ _ => true
  | .ldrImm _ _ _ => true
  | .strbImm _ _ _ => true
  | .ldrbImm _ _ _ => true
  | .undSpace _ _ => false
  | .strtReg _ _ _ _ _ => true
  | .ldrtReg _ _ _ _ _ => true
  | .strbtReg _ _ _ _ _ => true
  | .ldrbtReg _ _ _ _ _ => true
  | .strReg _ _ _ => true
  | .ldrReg _ _ _ => true
  | .strbReg _ _ _ => true
  | .ldrbReg _ _ _ => true
  | .stm1 _ _ _ _ _ _ => true
  | .ldm1 _ _ _ _ _ _ => true
  | .stm2 _ _ _ _ _ _ => true
  | .ldm2 _ _ _ _ _ _ => true
  | .ldm3 _ _ _ _ _ _ => true
  | .b _ _ => true
  | .bl _ _ => true
  | .undCop _ _ => false
  | .stc _ _ => false
  | .ldc _ _ => false
  | .cdp _ _ => false
  | .mcr _ _ => false
  | .mrc _ _ => false
  | .swi _ _ => false
  | .tLslImm _ _ _ => true
  | .tLsrImm _ _ _ => true
  | .tAsrImm _ _ _ => true
  | .tAddReg _ _ _ => true
  | .tSubReg _ _ _ => true
  | .tAddImm3 _ _ _ => true
  | .tSubImm3 _ _ _ => true
  | .tMovImm _ _ => true
  | .tCmpImm _ _ => true
  | .tAddImm _ _ => true
  | .tSubImm _ _ => true
  | .tAnd _ _ => true
  | .tEor _ _ => true
  | .tLsl _ _ => true
  | .tLsr _ _ => true
  | .tAsr _ _ => true
  | .tAdc _ _ => true
  | .tSbc _ _ => true
  | .tRor _ _ => true
  | .tTst _ _ => true
  | .tNeg _ _ => true
  | .tCmp _ _ => true
  | .tCmn _ _ => true
  | .tOrr _ _ => true
  | .tMul _ _ => false
  | .tBic _ _ => true
  | .tMvn _ _ => true
  | .tAddHi _ _ _ _ => true
  | .tCmpHi _ _ _ _ => true
  | .tMovHi _ _ _ _ => true
  | .tBx _ _ _ _ => true
  | .tLdrPc _ _ => true
  | .tStrReg _ _ _ => true
  | .tStrhReg _ _ _ => true
  | .tStrbReg _ _ _ => true
  | .tLdsbReg _ _ _ => true
  | .tLdrReg _ _ _ => true
  | .tLdrhReg _ _ _ => true
  | .tLdrbReg _ _ _ => true
  | .tLdshReg _ _ _ => true
  | .tStrImm _ _ _ => true
  | .tLdrImm _ _ _ => true
  | .tStrbImm _ _ _ => true
  | .tLdrbImm _ _ _ => true
  | .tStrhImm _ _ _ => true
  | .tLdrhImm _ _ _ => true
  | .tStrSp _ _ => true
  | .tLdrSp _ _ => true
  | .tAddPc _ _ => true
  | .tAddSp _ _ => true
  | .tIncSp _ => true
  | .tDecSp _ => true
  | .tPush _ _ => true
  | .tPop _ _ => true
  | .tUnd1011 _ => false
  | .tStmia _ _ => true
  | .tLdmia _ _ => true
  | .tUndDE _ => false
  | .tSwi _ => false
  | .tBCond _ _ => true
  | .tB _ => true
  | .tUnd11101 _ => false
  | .tBl1 _ => true
  | .tBl2 _ => true

/-- Loads, stores, load multiple and store multiple: what may run at system speed (R784). -/
def Instr.isTransfer : Instr → Bool
  | .mul _ _ _ _ _ _ => false
  | .mla _ _ _ _ _ _ => false
  | .umull _ _ _ _ _ _ => false
  | .umlal _ _ _ _ _ _ => false
  | .smull _ _ _ _ _ _ => false
  | .smlal _ _ _ _ _ _ => false
  | .undArith _ _ => false
  | .swp _ _ _ _ _ => false
  | .swpb _ _ _ _ _ => false
  | .undLsA _ _ => false
  | .strh _ _ => true
  | .ldrh _ _ => true
  | .ldrsb _ _ => true
  | .ldrsh _ _ => true
  | .undLsB _ _ => false
  | .mrs _ _ _ _ _ _ => false
  | .msrReg _ _ _ _ _ _ => false
  | .bx _ _ _ => false
  | .undCtlReg _ _ => false
  | .andShiftImm _ _ _ _ _ => false
  | .andShiftReg _ _ _ _ _ => false
  | .eorShiftImm _ _ _ _ _ => false
  | .eorShiftReg _ _ _ _ _ => false
  | .subShiftImm _ _ _ _ _ => false
  | .subShiftReg _ _ _ _ _ => false
  | .rsbShiftImm _ _ _ _ _ => false
  | .rsbShiftReg _ _ _ _ _ => false
  | .addShiftImm _ _ _ _ _ => false
  | .addShiftReg _ _ _ _ _ => false
  | .adcShiftImm _ _ _ _ _ => false
  | .adcShiftReg _ _ _ _ _ => false
  | .sbcShiftImm _ _ _ _ _ => false
  | .sbcShiftReg _ _ _ _ _ => false
  | .rscShiftImm _ _ _ _ _ => false
  | .rscShiftReg _ _ _ _ _ => false
  | .tstShiftImm _ _ _ _ => false
  | .tstShiftReg _ _ _ _ => false
  | .teqShiftImm _ _ _ _ => false
  | .teqShiftReg _ _ _ _ => false
  | .cmpShiftImm _ _ _ _ => false
  | .cmpShiftReg _ _ _ _ => false
  | .cmnShiftImm _ _ _ _ => false
  | .cmnShiftReg _ _ _ _ => false
  | .orrShiftImm _ _ _ _ _ => false
  | .orrShiftReg _ _ _ _ _ => false
  | .movShiftImm _ _ _ _ _ => false
  | .movShiftReg _ _ _ _ _ => false
  | .bicShiftImm _ _ _ _ _ => false
  | .bicShiftReg _ _ _ _ _ => false
  | .mvnShiftImm _ _ _ _ _ => false
  | .mvnShiftReg _ _ _ _ _ => false
  | .msrImm _ _ _ _ _ => false
  | .undCtlImm _ _ => false
  | .andImm _ _ _ _ _ => false
  | .eorImm _ _ _ _ _ => false
  | .subImm _ _ _ _ _ => false
  | .rsbImm _ _ _ _ _ => false
  | .addImm _ _ _ _ _ => false
  | .adcImm _ _ _ _ _ => false
  | .sbcImm _ _ _ _ _ => false
  | .rscImm _ _ _ _ _ => false
  | .tstImm _ _ _ _ => false
  | .teqImm _ _ _ _ => false
  | .cmpImm _ _ _ _ => false
  | .cmnImm _ _ _ _ => false
  | .orrImm _ _ _ _ _ => false
  | .movImm _ _ _ _ _ => false
  | .bicImm _ _ _ _ _ => false
  | .mvnImm _ _ _ _ _ => false
  | .strtImm _ _ _ _ _ => true
  | .ldrtImm _ _ _ _ _ => true
  | .strbtImm _ _ _ _ _ => true
  | .ldrbtImm _ _ _ _ _ => true
  | .strImm _ _ _ => true
  | .ldrImm _ _ _ => true
  | .strbImm _ _ _ => true
  | .ldrbImm _ _ _ => true
  | .undSpace _ _ => false
  | .strtReg _ _ _ _ _ => true
  | .ldrtReg _ _ _ _ _ => true
  | .strbtReg _ _ _ _ _ => true
  | .ldrbtReg _ _ _ _ _ => true
  | .strReg _ _ _ => true
  | .ldrReg _ _ _ => true
  | .strbReg _ _ _ => true
  | .ldrbReg _ _ _ => true
  | .stm1 _ _ _ _ _ _ => true
  | .ldm1 _ _ _ _ _ _ => true
  | .stm2 _ _ _ _ _ _ => true
  | .ldm2 _ _ _ _ _ _ => true
  | .ldm3 _ _ _ _ _ _ => true
  | .b _ _ => false
  | .bl _ _ => false
  | .undCop _ _ => false
  | .stc _ _ => false
  | .ldc _ _ => false
  | .cdp _ _ => false
  | .mcr _ _ => false
  | .mrc _ _ => false
  | .swi _ _ => false
  | .tLslImm _ _ _ => false
  | .tLsrImm _ _ _ => false
  | .tAsrImm _ _ _ => false
  | .tAddReg _ _ _ => false
  | .tSubReg _ _ _ => false
  | .tAddImm3 _ _ _ => false
  | .tSubImm3 _ _ _ => false
  | .tMovImm _ _ => false
  | .tCmpImm _ _ => false
  | .tAddImm _ _ => false
  | .tSubImm _ _ => false
  | .tAnd _ _ => false
  | .tEor _ _ => false
  | .tLsl _ _ => false
  | .tLsr _ _ => false
  | .tAsr _ _ => false
  | .tAdc _ _ => false
  | .tSbc _ _ => false
  | .tRor _ _ => false
  | .tTst _ _ => false
  | .tNeg _ _ => false
  | .tCmp _ _ => false
  | .tCmn _ _ => false
  | .tOrr _ _ => false
  | .tMul _ _ => false
  | .tBic _ _ => false
  | .tMvn _ _ => false
  | .tAddHi _ _ _ _ => false
  | .tCmpHi _ _ _ _ => false
  | .tMovHi _ _ _ _ => false
  | .tBx _ _ _ _ => false
  | .tLdrPc _ _ => true
  | .tStrReg _ _ _ => true
  | .tStrhReg _ _ _ => true
  | .tStrbReg _ _ _ => true
  | .tLdsbReg _ _ _ => true
  | .tLdrReg _ _ _ => true
  | .tLdrhReg _ _ _ => true
  | .tLdrbReg _ _ _ => true
  | .tLdshReg _ _ _ => true
  | .tStrImm _ _ _ => true
  | .tLdrImm _ _ _ => true
  | .tStrbImm _ _ _ => true
  | .tLdrbImm _ _ _ => true
  | .tStrhImm _ _ _ => true
  | .tLdrhImm _ _ _ => true
  | .tStrSp _ _ => true
  | .tLdrSp _ _ => true
  | .tAddPc _ _ => false
  | .tAddSp _ _ => false
  | .tIncSp _ => false
  | .tDecSp _ => false
  | .tPush _ _ => true
  | .tPop _ _ => true
  | .tUnd1011 _ => false
  | .tStmia _ _ => true
  | .tLdmia _ _ => true
  | .tUndDE _ => false
  | .tSwi _ => false
  | .tBCond _ _ => false
  | .tB _ => false
  | .tUnd11101 _ => false
  | .tBl1 _ => false
  | .tBl2 _ => false

/-- How many words a load takes from the data bus. -/
def Instr.loadWords : Instr → Nat
  | .mul _ _ _ _ _ _ => 0
  | .mla _ _ _ _ _ _ => 0
  | .umull _ _ _ _ _ _ => 0
  | .umlal _ _ _ _ _ _ => 0
  | .smull _ _ _ _ _ _ => 0
  | .smlal _ _ _ _ _ _ => 0
  | .undArith _ _ => 0
  | .swp _ _ _ _ _ => 0
  | .swpb _ _ _ _ _ => 0
  | .undLsA _ _ => 0
  | .strh _ _ => 0
  | .ldrh _ _ => 1
  | .ldrsb _ _ => 1
  | .ldrsh _ _ => 1
  | .undLsB _ _ => 0
  | .mrs _ _ _ _ _ _ => 0
  | .msrReg _ _ _ _ _ _ => 0
  | .bx _ _ _ => 0
  | .undCtlReg _ _ => 0
  | .andShiftImm _ _ _ _ _ => 0
  | .andShiftReg _ _ _ _ _ => 0
  | .eorShiftImm _ _ _ _ _ => 0
  | .eorShiftReg _ _ _ _ _ => 0
  | .subShiftImm _ _ _ _ _ => 0
  | .subShiftReg _ _ _ _ _ => 0
  | .rsbShiftImm _ _ _ _ _ => 0
  | .rsbShiftReg _ _ _ _ _ => 0
  | .addShiftImm _ _ _ _ _ => 0
  | .addShiftReg _ _ _ _ _ => 0
  | .adcShiftImm _ _ _ _ _ => 0
  | .adcShiftReg _ _ _ _ _ => 0
  | .sbcShiftImm _ _ _ _ _ => 0
  | .sbcShiftReg _ _ _ _ _ => 0
  | .rscShiftImm _ _ _ _ _ => 0
  | .rscShiftReg _ _ _ _ _ => 0
  | .tstShiftImm _ _ _ _ => 0
  | .tstShiftReg _ _ _ _ => 0
  | .teqShiftImm _ _ _ _ => 0
  | .teqShiftReg _ _ _ _ => 0
  | .cmpShiftImm _ _ _ _ => 0
  | .cmpShiftReg _ _ _ _ => 0
  | .cmnShiftImm _ _ _ _ => 0
  | .cmnShiftReg _ _ _ _ => 0
  | .orrShiftImm _ _ _ _ _ => 0
  | .orrShiftReg _ _ _ _ _ => 0
  | .movShiftImm _ _ _ _ _ => 0
  | .movShiftReg _ _ _ _ _ => 0
  | .bicShiftImm _ _ _ _ _ => 0
  | .bicShiftReg _ _ _ _ _ => 0
  | .mvnShiftImm _ _ _ _ _ => 0
  | .mvnShiftReg _ _ _ _ _ => 0
  | .msrImm _ _ _ _ _ => 0
  | .undCtlImm _ _ => 0
  | .andImm _ _ _ _ _ => 0
  | .eorImm _ _ _ _ _ => 0
  | .subImm _ _ _ _ _ => 0
  | .rsbImm _ _ _ _ _ => 0
  | .addImm _ _ _ _ _ => 0
  | .adcImm _ _ _ _ _ => 0
  | .sbcImm _ _ _ _ _ => 0
  | .rscImm _ _ _ _ _ => 0
  | .tstImm _ _ _ _ => 0
  | .teqImm _ _ _ _ => 0
  | .cmpImm _ _ _ _ => 0
  | .cmnImm _ _ _ _ => 0
  | .orrImm _ _ _ _ _ => 0
  | .movImm _ _ _ _ _ => 0
  | .bicImm _ _ _ _ _ => 0
  | .mvnImm _ _ _ _ _ => 0
  | .strtImm _ _ _ _ _ => 0
  | .ldrtImm _ _ _ _ _ => 1
  | .strbtImm _ _ _ _ _ => 0
  | .ldrbtImm _ _ _ _ _ => 1
  | .strImm _ _ _ => 0
  | .ldrImm _ _ _ => 1
  | .strbImm _ _ _ => 0
  | .ldrbImm _ _ _ => 1
  | .undSpace _ _ => 0
  | .strtReg _ _ _ _ _ => 0
  | .ldrtReg _ _ _ _ _ => 1
  | .strbtReg _ _ _ _ _ => 0
  | .ldrbtReg _ _ _ _ _ => 1
  | .strReg _ _ _ => 0
  | .ldrReg _ _ _ => 1
  | .strbReg _ _ _ => 0
  | .ldrbReg _ _ _ => 1
  | .stm1 _ _ _ _ _ _ => 0
  | .ldm1 _ _ _ _ _ list => (regList list).length
  | .stm2 _ _ _ _ _ _ => 0
  | .ldm2 _ _ _ _ _ list => (regList list).length
  | .ldm3 _ _ _ _ _ list => (regList list).length + 1
  | .b _ _ => 0
  | .bl _ _ => 0
  | .undCop _ _ => 0
  | .stc _ _ => 0
  | .ldc _ _ => 0
  | .cdp _ _ => 0
  | .mcr _ _ => 0
  | .mrc _ _ => 0
  | .swi _ _ => 0
  | .tLslImm _ _ _ => 0
  | .tLsrImm _ _ _ => 0
  | .tAsrImm _ _ _ => 0
  | .tAddReg _ _ _ => 0
  | .tSubReg _ _ _ => 0
  | .tAddImm3 _ _ _ => 0
  | .tSubImm3 _ _ _ => 0
  | .tMovImm _ _ => 0
  | .tCmpImm _ _ => 0
  | .tAddImm _ _ => 0
  | .tSubImm _ _ => 0
  | .tAnd _ _ => 0
  | .tEor _ _ => 0
  | .tLsl _ _ => 0
  | .tLsr _ _ => 0
  | .tAsr _ _ => 0
  | .tAdc _ _ => 0
  | .tSbc _ _ => 0
  | .tRor _ _ => 0
  | .tTst _ _ => 0
  | .tNeg _ _ => 0
  | .tCmp _ _ => 0
  | .tCmn _ _ => 0
  | .tOrr _ _ => 0
  | .tMul _ _ => 0
  | .tBic _ _ => 0
  | .tMvn _ _ => 0
  | .tAddHi _ _ _ _ => 0
  | .tCmpHi _ _ _ _ => 0
  | .tMovHi _ _ _ _ => 0
  | .tBx _ _ _ _ => 0
  | .tLdrPc _ _ => 1
  | .tStrReg _ _ _ => 0
  | .tStrhReg _ _ _ => 0
  | .tStrbReg _ _ _ => 0
  | .tLdsbReg _ _ _ => 1
  | .tLdrReg _ _ _ => 1
  | .tLdrhReg _ _ _ => 1
  | .tLdrbReg _ _ _ => 1
  | .tLdshReg _ _ _ => 1
  | .tStrImm _ _ _ => 0
  | .tLdrImm _ _ _ => 1
  | .tStrbImm _ _ _ => 0
  | .tLdrbImm _ _ _ => 1
  | .tStrhImm _ _ _ => 0
  | .tLdrhImm _ _ _ => 1
  | .tStrSp _ _ => 0
  | .tLdrSp _ _ => 1
  | .tAddPc _ _ => 0
  | .tAddSp _ _ => 0
  | .tIncSp _ => 0
  | .tDecSp _ => 0
  | .tPush _ _ => 0
  | .tPop pc list => (regList list).length + (if pc then 1 else 0)
  | .tUnd1011 _ => 0
  | .tStmia _ _ => 0
  | .tLdmia _ list => (regList list).length
  | .tUndDE _ => 0
  | .tSwi _ => 0
  | .tBCond _ _ => 0
  | .tB _ => 0
  | .tUnd11101 _ => 0
  | .tBl1 _ => 0
  | .tBl2 _ => 0

/-- Instructions that may end a debug session by writing the PC: branches, and data operations with the PC as destination
(R787, R788). -/
def Instr.isExit : Instr → Bool
  | .mul _ _ _ _ _ _ => false
  | .mla _ _ _ _ _ _ => false
  | .umull _ _ _ _ _ _ => false
  | .umlal _ _ _ _ _ _ => false
  | .smull _ _ _ _ _ _ => false
  | .smlal _ _ _ _ _ _ => false
  | .undArith _ _ => false
  | .swp _ _ _ _ _ => false
  | .swpb _ _ _ _ _ => false
  | .undLsA _ _ => false
  | .strh _ _ => false
  | .ldrh _ _ => false
  | .ldrsb _ _ => false
  | .ldrsh _ _ => false
  | .undLsB _ _ => false
  | .mrs _ _ _ _ _ _ => false
  | .msrReg _ _ _ _ _ _ => false
  | .bx _ _ _ => true
  | .undCtlReg _ _ => false
  | .andShiftImm _ _ _ rd _ => isPc rd
  | .andShiftReg _ _ _ rd _ => isPc rd
  | .eorShiftImm _ _ _ rd _ => isPc rd
  | .eorShiftReg _ _ _ rd _ => isPc rd
  | .subShiftImm _ _ _ rd _ => isPc rd
  | .subShiftReg _ _ _ rd _ => isPc rd
  | .rsbShiftImm _ _ _ rd _ => isPc rd
  | .rsbShiftReg _ _ _ rd _ => isPc rd
  | .addShiftImm _ _ _ rd _ => isPc rd
  | .addShiftReg _ _ _ rd _ => isPc rd
  | .adcShiftImm _ _ _ rd _ => isPc rd
  | .adcShiftReg _ _ _ rd _ => isPc rd
  | .sbcShiftImm _ _ _ rd _ => isPc rd
  | .sbcShiftReg _ _ _ rd _ => isPc rd
  | .rscShiftImm _ _ _ rd _ => isPc rd
  | .rscShiftReg _ _ _ rd _ => isPc rd
  | .tstShiftImm _ _ _ _ => false
  | .tstShiftReg _ _ _ _ => false
  | .teqShiftImm _ _ _ _ => false
  | .teqShiftReg _ _ _ _ => false
  | .cmpShiftImm _ _ _ _ => false
  | .cmpShiftReg _ _ _ _ => false
  | .cmnShiftImm _ _ _ _ => false
  | .cmnShiftReg _ _ _ _ => false
  | .orrShiftImm _ _ _ rd _ => isPc rd
  | .orrShiftReg _ _ _ rd _ => isPc rd
  | .movShiftImm _ _ _ rd _ => isPc rd
  | .movShiftReg _ _ _ rd _ => isPc rd
  | .bicShiftImm _ _ _ rd _ => isPc rd
  | .bicShiftReg _ _ _ rd _ => isPc rd
  | .mvnShiftImm _ _ _ rd _ => isPc rd
  | .mvnShiftReg _ _ _ rd _ => isPc rd
  | .msrImm _ _ _ _ _ => false
  | .undCtlImm _ _ => false
  | .andImm _ _ _ rd _ => isPc rd
  | .eorImm _ _ _ rd _ => isPc rd
  | .subImm _ _ _ rd _ => isPc rd
  | .rsbImm _ _ _ rd _ => isPc rd
  | .addImm _ _ _ rd _ => isPc rd
  | .adcImm _ _ _ rd _ => isPc rd
  | .sbcImm _ _ _ rd _ => isPc rd
  | .rscImm _ _ _ rd _ => isPc rd
  | .tstImm _ _ _ _ => false
  | .teqImm _ _ _ _ => false
  | .cmpImm _ _ _ _ => false
  | .cmnImm _ _ _ _ => false
  | .orrImm _ _ _ rd _ => isPc rd
  | .movImm _ _ _ rd _ => isPc rd
  | .bicImm _ _ _ rd _ => isPc rd
  | .mvnImm _ _ _ rd _ => isPc rd
  | .strtImm _ _ _ _ _ => false
  | .ldrtImm _ _ _ _ _ => false
  | .strbtImm _ _ _ _ _ => false
  | .ldrbtImm _ _ _ _ _ => false
  | .strImm _ _ _ => false
  | .ldrImm _ _ _ => false
  | .strbImm _ _ _ => false
  | .ldrbImm _ _ _ => false
  | .undSpace _ _ => false
  | .strtReg _ _ _ _ _ => false
  | .ldrtReg _ _ _ _ _ => false
  | .strbtReg _ _ _ _ _ => false
  | .ldrbtReg _ _ _ _ _ => false
  | .strReg _ _ _ => false
  | .ldrReg _ _ _ => false
  | .strbReg _ _ _ => false
  | .ldrbReg _ _ _ => false
  | .stm1 _ _ _ _ _ _ => false
  | .ldm1 _ _ _ _ _ _ => false
  | .stm2 _ _ _ _ _ _ => false
  | .ldm2 _ _ _ _ _ _ => false
  | .ldm3 _ _ _ _ _ _ => false
  | .b _ _ => true
  | .bl _ _ => true
  | .undCop _ _ => false
  | .stc _ _ => false
  | .ldc _ _ => false
  | .cdp _ _ => false
  | .mcr _ _ => false
  | .mrc _ _ => false
  | .swi _ _ => false
  | .tLslImm _ _ _ => false
  | .tLsrImm _ _ _ => false
  | .tAsrImm _ _ _ => false
  | .tAddReg _ _ _ => false
  | .tSubReg _ _ _ => false
  | .tAddImm3 _ _ _ => false
  | .tSubImm3 _ _ _ => false
  | .tMovImm _ _ => false
  | .tCmpImm _ _ => false
  | .tAddImm _ _ => false
  | .tSubImm _ _ => false
  | .tAnd _ _ => false
  | .tEor _ _ => false
  | .tLsl _ _ => false
  | .tLsr _ _ => false
  | .tAsr _ _ => false
  | .tAdc _ _ => false
  | .tSbc _ _ => false
  | .tRor _ _ => false
  | .tTst _ _ => false
  | .tNeg _ _ => false
  | .tCmp _ _ => false
  | .tCmn _ _ => false
  | .tOrr _ _ => false
  | .tMul _ _ => false
  | .tBic _ _ => false
  | .tMvn _ _ => false
  | .tAddHi h1 _ _ rd => isPc (hiReg h1 rd)
  | .tCmpHi _ _ _ _ => false
  | .tMovHi h1 _ _ rd => isPc (hiReg h1 rd)
  | .tBx _ _ _ _ => true
  | .tLdrPc _ _ => false
  | .tStrReg _ _ _ => false
  | .tStrhReg _ _ _ => false
  | .tStrbReg _ _ _ => false
  | .tLdsbReg _ _ _ => false
  | .tLdrReg _ _ _ => false
  | .tLdrhReg _ _ _ => false
  | .tLdrbReg _ _ _ => false
  | .tLdshReg _ _ _ => false
  | .tStrImm _ _ _ => false
  | .tLdrImm _ _ _ => false
  | .tStrbImm _ _ _ => false
  | .tLdrbImm _ _ _ => false
  | .tStrhImm _ _ _ => false
  | .tLdrhImm _ _ _ => false
  | .tStrSp _ _ => false
  | .tLdrSp _ _ => false
  | .tAddPc _ _ => false
  | .tAddSp _ _ => false
  | .tIncSp _ => false
  | .tDecSp _ => false
  | .tPush _ _ => false
  | .tPop _ _ => false
  | .tUnd1011 _ => false
  | .tStmia _ _ => false
  | .tLdmia _ _ => false
  | .tUndDE _ => false
  | .tSwi _ => false
  | .tBCond _ _ => true
  | .tB _ => true
  | .tUnd11101 _ => false
  | .tBl1 _ => false
  | .tBl2 _ => true

/-- The instruction that the ID cells hold, decoded in the state the core is in (R773); in Thumb state the half that the PC's
bit 1 selects, and a debugger scans the halfword in twice. -/
def State.scanned (s : State) (id : Word) : Instr := decodeCode (s.codeOf s.pc id)

/-- One instruction at debug speed (R771): its accesses take and leave words in the DD cells. The hazard after LDM (2) and STM (2)
holds here too (70_reset_and_hazards.md R921). -/
def State.debugSpeedStep (s : State) (id : Word) : Result :=
  let i := s.scanned id
  if Instr.debugLegal i = false then .refused .notInDebugState
  else if userBankHazard i s then .fault .userBankHazard
  else exec i s.begin

/-- `debug_step(instr, dd_in) -> dd_out` (R856): `ddOut` afterwards holds what this instruction stored. -/
def State.debugStep (s : State) (id : Word) (ddIn : List Word) : Result :=
  if s.dbg.inDebug then
    match ({ s with dbg := { s.dbg with ddIn := ddIn, ddOut := [] } }).debugSpeedStep id with
    | .next t => .next { t with dbg := { t.dbg with ddIn := [] } }
    | .fault f => .fault f
    | .refused r => .refused r
  else .refused .needsDebugState

/-- Did an access made since `s` abort? -/
def abortedSince (s t : State) : Bool := (t.bus.take (t.bus.length - s.bus.length)).any fun e => e.aborted

/-- The core is back in debug state after a system-speed access: SYSCOMP and SYSSPEED HIGH, the PC five addresses on (R783 to
R785); nothing lowers SYSCOMP behind it (DESIGN CHOICE, log 28); after an abort the PC at the vector in the form it has on entry, and R14_abt a value that identifies nothing (R712, R785).
DBGACK has fallen behind the access and risen again (R764), unless debug control bit 0 holds it HIGH. A word stored at debug speed has
left DD (R760, 62_signals.md R863). DESIGN CHOICE (log 25): after a
load of R15 the PC is the value loaded, with no addresses added. -/
def State.afterSystemStep (s t : State) : State :=
  let falls := t.dbg.ackFalls + if t.ice.dbgCtl.getLsbD 0 then 0 else 1
  let u := { t with
    port := t.port.retained
    dbg := { t.dbg with sysSpeed := false, sysComp := true, sysspeedBit := true, watch := .idle, ackFalls := falls, ddOut := [] } }
  if abortedSince s t then { (u.setBankReg abtMode 14#4 u.freeWord).drawn with pc := u.debugPc, pipe := Pipe.clear }
  else if t.pc = s.pc + s.width then { u with pc := s.pc + 5#32 * s.width }
  else u

/-- `system_step(instr)` (R782, R784, R821, R856). -/
def State.systemStep (s : State) (id : Word) : Result :=
  if s.dbg.inDebug = false then .refused .needsDebugState
  else if s.ice.dbgCtl.getLsbD 3 then .refused .singleStepSystemSpeed
  else if Instr.isTransfer (s.scanned id) = false then .refused .notAtSystemSpeed
  else if userBankHazard (s.scanned id) s then .fault .userBankHazard
  else
    match exec (s.scanned id) { s.begin with dbg := { s.dbg with sysSpeed := true } } with
    | .next t => .next (s.afterSystemStep t)
    | .fault f => .fault f
    | .refused r => .refused r

/-- Out of debug state with the PC as it is (R787): interrupts are enabled again, one that came and went in debug state is
forgotten (R760, log 22), the scan cells are in system mode again, the single-step hardware is armed (R820), and DBGACK masks the
first three fetches (R764), and exactly three (DESIGN CHOICE, log 46: R764 lets it stay HIGH for more, in circumstances the spec does
not name). A hazard of R921 does not outlast it (DESIGN CHOICE, log 17). -/
def State.leaveDebug (s : State) : State :=
  { s with
    pins := s.pins.forgotten
    pipe := { Pipe.clear with ackFetches := 3 }
    tap := { s.tap with cells := .normal }
    dbg := { s.dbg.fresh with stepArmed := s.ice.dbgCtl.getLsbD 3 } }

/-- An address a program can run at, in the current state (10_state.md R46). -/
def State.codeAddress (s : State) (a : Word) : Word := if bitT s.cpsr then a &&& 0xFFFFFFFE#32 else a &&& 0xFFFFFFFC#32

/-- `exit_debug(target)` (R787, R856). -/
def State.exitDebug (s : State) (target : Word) : Result :=
  if s.dbg.inDebug then .next { s.leaveDebug with pc := s.codeAddress target } else .refused .needsDebugState

end Sys2Proof.Machine
end

