-- ==== Sys2Proof/Machine/Tap.lean ====
section
/-!
DEFINITION. The TAP controller's state diagram and instructions (61_debug.md R790, R845), the selected data register (R794 to
R797), the cells of the scan chains by their numbers in Table 6-1 (R798, R799), and the control signals of an external chain
(R801, 62_signals.md R866).
-/

namespace Sys2Proof.Machine

/-- The state diagram of IEEE 1149.1 (R790). -/
def TapState.next (st : TapState) (tms : Bool) : TapState :=
  match st with
  | .testLogicReset => if tms then .testLogicReset else .runTestIdle
  | .runTestIdle => if tms then .selectDr else .runTestIdle
  | .selectDr => if tms then .selectIr else .captureDr
  | .captureDr => if tms then .exit1Dr else .shiftDr
  | .shiftDr => if tms then .exit1Dr else .shiftDr
  | .exit1Dr => if tms then .updateDr else .pauseDr
  | .pauseDr => if tms then .exit2Dr else .pauseDr
  | .exit2Dr => if tms then .updateDr else .shiftDr
  | .updateDr => if tms then .selectDr else .runTestIdle
  | .selectIr => if tms then .testLogicReset else .captureIr
  | .captureIr => if tms then .exit1Ir else .shiftIr
  | .shiftIr => if tms then .exit1Ir else .shiftIr
  | .exit1Ir => if tms then .updateIr else .pauseIr
  | .pauseIr => if tms then .exit2Ir else .pauseIr
  | .exit2Ir => if tms then .updateIr else .shiftIr
  | .updateIr => if tms then .selectDr else .runTestIdle

/-- The public instructions (Table 5-1, R845); every unused code is BYPASS. -/
inductive TapInstr where
  | extest | scanN | samplePreload | restart | clamp | highz | clampz | intest | idcode | bypass
deriving DecidableEq, Repr

/-- The instruction of a code (R845). -/
def TapInstr.ofCode (c : BitVec 4) : TapInstr :=
  match c.toNat with
  | 0 => .extest
  | 2 => .scanN
  | 3 => .samplePreload
  | 4 => .restart
  | 5 => .clamp
  | 7 => .highz
  | 9 => .clampz
  | 12 => .intest
  | 14 => .idcode
  | _ => .bypass

/-- What stands between TDI and TDO (R794, R797, R845). -/
inductive DataReg where
  | bypass | idCode | scanSelect | chain0 | chain1 | chain2
  /-- Chain 3 and the unassigned numbers: the external path from SDIN to SDOUTBS. -/
  | external
  /-- Chains 4 to 15, whose selection is not described. -/
  | reserved
deriving DecidableEq, Repr

/-- The chain of a scan chain number (Table 5-3, R795, R797). -/
def chainOf (n : BitVec 5) : DataReg :=
  match n.toNat with
  | 0 => .chain0
  | 1 => .chain1
  | 2 => .chain2
  | 3 => .external
  | k => if k < 16 then .reserved else .external

/-- The data register that the current instruction connects (R845). -/
def Tap.selected (t : Tap) : DataReg :=
  match TapInstr.ofCode t.ir with
  | .extest | .samplePreload | .intest => chainOf t.screg
  | .scanN => .scanSelect
  | .idcode => .idCode
  | .restart | .clamp | .highz | .clampz | .bypass => .bypass

/-- The place of a cell of scan chain 1, counted from TDO (U35). -/
def Tap.place (t : Tap) (cell : Nat) : Nat := t.order.idxOf cell

/-- The value of a cell of scan chain 1, numbered as in Table 6-1 (R799). -/
def Tap.cell (t : Tap) (cell : Nat) : Bool := t.chain1.getLsbD (t.place cell)

/-- A bit vector given bit by bit. -/
def packBits (w : Nat) (f : Nat → Bool) : BitVec w :=
  BitVec.ofNat w ((List.range w).foldl (fun acc k => if f k then acc + 2 ^ k else acc) 0)

/-- A 32-bit field of scan chain 1 whose bit k stands in cell `f k`. -/
def Tap.field (t : Tap) (f : Nat → Nat) : Word := packBits 32 fun k => t.cell (f k)

/-- The ID cells: numbers 1 to 32 are ID[0] to ID[31] (R799). -/
def Tap.idCells (t : Tap) : Word := t.field fun k => k + 1

/-- The DD cells: numbers 36 to 67 are DD[31] to DD[0] (R799). -/
def Tap.ddCells (t : Tap) : Word := t.field fun k => 67 - k

/-- The SYSSPEED cell, number 33 (R781, R799). -/
def Tap.sysspeedCell (t : Tap) : Bool := t.cell 33

/-- Scan chain 1 with every cell given. -/
def Tap.packChain1 (t : Tap) (f : Nat → Bool) : BitVec 67 := packBits 67 fun k => f (t.order.getD k 0)

/-- The number of the cell of scan chain 0 at a place, and the place of a cell: the sources do not say which end is nearest TDO
(R798, log 32). -/
def Tap.cellAt0 (t : Tap) (k : Nat) : Nat := if t.flip0 then 184 - k else k + 1

/-- The value of a cell of scan chain 0 (R798). -/
def Tap.cell0 (t : Tap) (n : Nat) : Bool := t.chain0.getLsbD (if t.flip0 then 184 - n else n - 1)

/-- Scan chain 0 with every cell given. -/
def Tap.packChain0 (t : Tap) (f : Nat → Bool) : BitVec 184 := packBits 184 fun k => f (t.cellAt0 k)

/-- An input cell of Table 6-1 (R798). -/
def cellInput (n : Nat) : Bool :=
  decide (n ≤ 32) || (decide (131 ≤ n) && decide (n ≤ 135)) || n == 142 || (decide (153 ≤ n) && decide (n ≤ 168))

/-- A cell of the bidirectional bus DD (R798). -/
def cellData (n : Nat) : Bool := decide (36 ≤ n) && decide (n ≤ 67)

/-- The outputs that TBE LOW and HIGHZ disable (62_signals.md R872). -/
def tristate (n : Nat) : Bool :=
  (decide (36 ≤ n) && decide (n ≤ 130)) || (decide (143 ≤ n) && decide (n ≤ 152)) || (decide (169 ≤ n) && decide (n ≤ 182))

/-- The scan cells after an instruction is loaded at Update-IR (R845): SCAN_N leaves them, RESTART too until Run-Test/Idle
(log 34). CLAMPZ disables outputs when scan chain 0 is selected (R853); with another chain the spec gives it no effect on them, and the
cells are in system mode (DESIGN CHOICE, log 34). -/
def Tap.loadIr (t : Tap) (ir : BitVec 4) : Tap :=
  let t := { t with ir := ir }
  match TapInstr.ofCode ir with
  | .extest | .intest => { t with cells := .test, cellChain := t.screg }
  | .clamp => { t with cells := .clamp, cellChain := t.screg }
  | .highz => { t with cells := .highz, cellChain := t.screg }
  | .clampz => { t with cells := if chainOf t.screg = .chain0 then .clampz else .normal, cellChain := t.screg }
  | .samplePreload | .idcode | .bypass => { t with cells := .normal, cellChain := t.screg }
  | .scanN | .restart => t

/-- The TAP controller in reset, by nTRST or in Test-Logic-Reset (R790, R791): system mode, IDCODE, scan chain 3. The shift
registers and SDIN keep what they hold: the sources give them no reset value (DESIGN CHOICE, log 32). -/
def Tap.inReset (t : Tap) : Tap :=
  { t with st := .testLogicReset, ir := 0b1110#4, screg := 3#5, cells := .normal, cellChain := 3#5 }

/-! ## Control of an external boundary scan chain (R801, 62_signals.md R866): inactive unless scan chain 3 is selected -/

/-- Scan chain 3 is selected. -/
def Tap.boundary (t : Tap) : Bool := t.screg == 3#5

/-- DRIVEOUTBS: the external cells are in test mode. -/
def Tap.driveoutbs (t : Tap) : Bool :=
  t.boundary && match TapInstr.ofCode t.ir with
    | .intest | .extest | .clamp | .clampz => true
    | .scanN | .samplePreload | .restart | .highz | .idcode | .bypass => false

/-- PCLKBS: the pulse of Update-DR. -/
def Tap.pclkbs (t : Tap) : Bool := t.boundary && t.st == .updateDr

/-- ICAPCLKBS: the pulse of Capture-DR under INTEST. -/
def Tap.icapclkbs (t : Tap) : Bool := t.boundary && t.st == .captureDr && TapInstr.ofCode t.ir == .intest

/-- ECAPCLKBS: the pulse of Capture-DR under EXTEST. -/
def Tap.ecapclkbs (t : Tap) : Bool := t.boundary && t.st == .captureDr && TapInstr.ofCode t.ir == .extest

/-- SHCLK1BS: in Shift-DR it follows TCK1, HIGH when TCK is HIGH (log 34). -/
def Tap.shclk1bs (t : Tap) (tckHigh : Bool) : Bool := t.boundary && t.st == .shiftDr && tckHigh

/-- SHCLK2BS: in Shift-DR it follows TCK2, HIGH when TCK is LOW. -/
def Tap.shclk2bs (t : Tap) (tckHigh : Bool) : Bool := t.boundary && t.st == .shiftDr && !tckHigh

/-- RSTCLKBS: the TAP controller is in reset or nTRST is LOW (R791). -/
def rstclkbs (s : State) : Bool := s.tap.st == .testLogicReset || s.pins.ntrstLow

end Sys2Proof.Machine
end

