-- ==== Sys2Proof/Machine/Signals.lean ====
section
/-!
DEFINITION. The signals of the core as the cells of scan chain 0 see them, by their numbers in Table 6-1 (61_debug.md R798), the
output pins under each TAP instruction (R845 to R854), and when scan cells cut the core off from the system.
-/

namespace Sys2Proof.Machine

/-- Both interfaces indicate internal cycles: in debug state and in reset (R760, 70_reset_and_hazards.md R900, R901). -/
def State.idle (s : State) : Bool := s.dbg.inDebug || s.inReset

/-- The transfer of the latest step of the core is still on the data interface: a capture falls between two steps, ahead of any
request of the next instruction (DESIGN CHOICE, log 34). -/
def State.transferring (s : State) : Bool := s.port.live && !s.idle

/-- The word of an MCR to coprocessor 15 is on IA and DA, with no memory access requested (46_arm_coprocessor.md R488). It stays there
as long as the transfer is shown (DESIGN CHOICE, log 34). -/
def State.wordOnIa (s : State) : Bool := s.transferring && s.port.onIa

/-- InMREQ and ISEQ: what the next cycle is, is free but for the reserved combination, non-sequential where no fetch is behind the PC,
and internal where the core is idle or IA carries a coprocessor's word (20_memory.md R102, 70_reset_and_hazards.md R903). -/
def State.inCycle (s : State) : Bool × Bool :=
  let mreq := s.idle || s.wordOnIa || Config.freeBit (s.draws + 143)
  (mreq, !mreq && !s.pipe.queue.isEmpty && Config.freeBit (s.draws + 169))

/-- DnMREQ, DSEQ and DMORE (20_memory.md R103, R106): the cycle of the transfer shown, or, behind it, an internal cycle that retains
its outputs. -/
def State.dnCycle (s : State) : Bool × Bool × Bool :=
  match s.port.event with
  | some e =>
    if s.transferring && Config.freeBit (s.draws + 144) then
      if s.port.cop then (true, true, false) else (false, e.seq, e.more)
    else (true, false, false)
  | none => (true, false, false)

/-- DMAS as the cells see it: never the reserved combination (20_memory.md R104). -/
def State.dmasShown (s : State) : BitVec 2 :=
  match s.port.event with
  | some e => e.size.dmas
  | none =>
    let high := Config.freeBit (s.draws + 146)
    bit high ++ bit (!high && Config.freeBit (s.draws + 147))

/-- DD as cells 36 to 67 see it: in debug state the oldest word stored at debug speed (R760, R775), else what the latest transfer left
there: the data of a write, and of a read of a word where UNIEN LOW lets DD be wired to DDIN (20_memory.md R108). Where UNIEN HIGH keeps DD
driven after a read, its value is free (62_signals.md R863, log 34). -/
def State.ddShown (s : State) : Word :=
  let free := Config.freeWord (s.draws + 1)
  let held := match s.port.event with
    | some e => if e.write || (!s.pins.unien && e.size == .word) then e.value else free
    | none => free
  if s.dbg.inDebug then s.dbg.ddOut.headD held else held

/-- ID as the cells see it: the latest fetch. -/
def State.idShown (s : State) : Word :=
  match s.pipe.queue.getLast? with
  | some k => k.id
  | none => Config.freeWord s.draws

/-- IA[31:1]: the word of an MCR to coprocessor 15 (46_arm_coprocessor.md R488), else the latest fetch, or the next where nothing is
fetched. In debug state it moves on by one width with every instruction scanned into the pipeline (R763), counted from R15 (DESIGN CHOICE,
log 34). -/
def State.iaShown (s : State) : Word :=
  if s.inReset then Config.freeWord (s.draws + 2)
  else if s.dbg.inDebug then
    s.pcOperand + (if s.dbg.pending.isSome then s.width else 0#32) - BitVec.ofNat 32 s.dbg.discard * s.width
      + BitVec.ofNat 32 s.dbg.scans * s.width
  else if s.wordOnIa then (s.port.event.map BusEvent.addr).getD (Config.freeWord (s.draws + 2))
  else s.pc + BitVec.ofNat 32 (s.pipe.queue.length - 1) * s.width

/-- The signal of cell `n` of Table 6-1. What the model does not hold is free: clocks, waits and bus enables, and the interfaces
where they show nothing (log 34). DESIGN CHOICE (log 34): DLOCK is retained with the other outputs of the data interface, so that behind
a swap it stays HIGH until the next transfer. -/
def State.signal (s : State) (n : Nat) : Bool :=
  let free := Config.freeBit (s.draws + n)
  let access := fun f : BusEvent → Bool => (s.port.event.map f).getD free
  if n ≤ 32 then s.idShown.getLsbD (n - 1)
  else if n = 33 then s.dbg.sysspeedBit
  else if n = 34 then free
  else if n = 35 then if s.dbg.inDebug then !s.dbg.ddOut.isEmpty else s.transferring && access BusEvent.write
  else if n ≤ 67 then s.ddShown.getLsbD (67 - n)
  else if n ≤ 99 then access fun e => e.addr.getLsbD (99 - n)
  else if n ≤ 130 then s.iaShown.getLsbD (131 - n)
  else if n = 131 then s.pins.iebkpt
  else if n = 132 then s.pins.dewpt
  else if n = 133 then s.pins.edbgrq
  else if n = 134 then s.pins.extern0
  else if n = 135 then s.pins.extern1
  else if n = 136 then commrx s
  else if n = 137 then commtx s
  else if n = 138 then dbgack s
  else if n = 139 then s.ice.w0.rangeOut
  else if n = 140 then s.ice.w1.rangeOut
  else if n = 141 then dbgrqi s
  else if n = 143 then s.inCycle.1
  else if n = 144 then s.dnCycle.1
  else if n = 145 then access BusEvent.write
  else if n = 146 then s.dmasShown.getLsbD 1
  else if n = 147 then s.dmasShown.getLsbD 0
  else if n = 148 then s.pass
  else if n = 149 then s.lateCancel
  else if n = 150 then bitT s.cpsr
  else if n = 151 then s.privileged
  else if n = 152 then access BusEvent.trans
  else if n = 153 then !s.inReset
  else if n = 155 then (s.pipe.queue.getLast?.map Slot.aborted).getD free
  else if n = 157 then if s.transferring && !s.port.cop then access BusEvent.aborted else free
  else if n = 159 then !s.pins.nfiqLow
  else if n = 160 then !s.pins.nirqLow
  else if n = 161 then s.pins.isync
  else if n = 162 then s.pins.bigend
  else if n = 163 then s.pins.hivecs
  else if 164 ≤ n ∧ n ≤ 167 then if s.cop.replies.isEmpty then n == 164 || n == 166 else free
  else if n = 168 then s.pins.unien
  else if n = 169 then s.inCycle.2
  else if 170 ≤ n ∧ n ≤ 174 then s.mode.getLsbD (174 - n)
  else if 175 ≤ n ∧ n ≤ 179 then access fun e => e.mode.getLsbD (179 - n)
  else if n = 180 then s.dnCycle.2.1
  else if n = 181 then s.dnCycle.2.2
  else if n = 182 then access BusEvent.lock
  else if n = 184 then s.instrExec
  else free

/-- The cell of number `n` in the chain whose cells stand between core and system, if it has one. -/
def Tap.between (t : Tap) (n : Nat) : Option Bool :=
  match chainOf t.cellChain with
  | .chain0 => some (t.cell0 n)
  | .chain1 => if n ≤ 67 then some (t.cell n) else none
  | _ => none

/-- The level of output pin `n` under the current TAP instruction; none is high impedance (R845, R851 to R853): what HIGHZ and CLAMPZ
disable, and DD while DDEN is LOW, when only a write drives it (20_memory.md R108, R799). UNIEN HIGH drives every output (62_signals.md
R872). -/
def State.outputPin (s : State) (n : Nat) : Option Bool :=
  let cell := fun k => match s.tap.cells with
    | .normal | .highz => s.signal k
    | .test | .clamp | .clampz => (s.tap.between k).getD (s.signal k)
  let disabled := tristate n && (s.tap.cells == .highz || s.tap.cells == .clampz)
  if !s.pins.unien && (disabled || (cellData n && !cell 35)) then none else some (cell n)

/-- Scan cells, or disabled outputs, stand between the core and the system: an instruction of the running core would be part of
a production test (00_scope.md R12, R770). DESIGN CHOICE (log 34): under CLAMP with scan chain 1, which the spec advises against (R851), the
pins of DD and DDEN come from the cells and the core runs on, its stores reaching memory. -/
def State.cutOff (s : State) : Bool :=
  let chain := chainOf s.tap.cellChain
  match s.tap.cells with
  | .normal => false
  | .test => chain == .chain0 || chain == .chain1
  | .clamp => chain == .chain0
  | .highz => !s.pins.unien
  | .clampz => true

/-- What cell `n` captures in Capture-DR. Under EXTEST the input cells take the system's levels and the output cells keep their values;
so does DD when the DDEN cell holds 1, and when it holds 0 DD takes what the system drives on it, which is free. Otherwise the cell
takes the signal (R798, R799, R846, R848, R854). DESIGN CHOICE (log 34): under EXTEST the internal cells 33 and 34, of which R846 does not
speak, keep their values like output cells. -/
def State.captureCell (s : State) (old : Nat → Bool) (n : Nat) : Bool :=
  if TapInstr.ofCode s.tap.ir != .extest then s.signal n
  else if cellData n then if old 35 then old n else (Config.freeWord (s.draws + 1)).getLsbD (67 - n)
  else if cellInput n then s.signal n
  else old n

end Sys2Proof.Machine
end

