-- ==== Sys2Proof/Machine/Serial.lean ====
section
/-!
DEFINITION. What the TAP controller does cycle by cycle (61_debug.md R790 to R796), the scan chains (R797 to R802), and what a pass
through Run-Test/Idle does in debug state (R771, R781, R782, R787).
-/

namespace Sys2Proof.Machine

/-- Capture-DR of scan chain 1. In debug state under INTEST SYSSPEED shows the cause of entry the first time (R756) and is free
afterwards; every other capture disturbs nothing. -/
def State.captureChain1 (s : State) : State :=
  let taken := s.dbg.inDebug && TapInstr.ofCode s.tap.ir == .intest
  { s with
    tap := { s.tap with chain1 := s.tap.packChain1 (s.captureCell s.tap.cell) }
    dbg := if taken then { s.dbg with sysspeedBit := Config.freeBit (s.draws + 185) } else s.dbg
    draws := s.draws + 186 }

/-- Capture-DR of scan chain 0 (R798). -/
def State.captureChain0 (s : State) : State :=
  { s with
    tap := { s.tap with chain0 := s.tap.packChain0 (s.captureCell s.tap.cell0) }
    draws := s.draws + 185 }

/-- Capture-DR (R793 to R800, R845). -/
def State.captureDr (s : State) : State :=
  match s.tap.selected with
  | .bypass => { s with tap := { s.tap with bypass := false } }
  | .idCode => { s with tap := { s.tap with idReg := s.pins.tapid } }
  | .scanSelect => { s with tap := { s.tap with scShift := 0b10000#5 } }
  | .chain0 => s.captureChain0
  | .chain1 => s.captureChain1
  | .chain2 | .external | .reserved => s

/-- A shift register one place on, least significant bit first, TDI into the top. -/
def shiftIn {n : Nat} (r : BitVec n) (tdi : Bool) : BitVec n := (r >>> 1) ||| ((BitVec.ofBool tdi).setWidth n <<< (n - 1))

/-- Shift-DR (R793 to R800); with an external chain selected SDIN carries TDI (R797), and keeps the last level outside Shift-DR (DESIGN
CHOICE, log 32). -/
def Tap.shiftDr (t : Tap) (tdi : Bool) : Tap :=
  match t.selected with
  | .bypass => { t with bypass := tdi }
  | .idCode => { t with idReg := shiftIn t.idReg tdi }
  | .scanSelect => { t with scShift := shiftIn t.scShift tdi }
  | .chain0 => { t with chain0 := shiftIn t.chain0 tdi }
  | .chain1 => { t with chain1 := shiftIn t.chain1 tdi }
  | .chain2 => { t with chain2 := shiftIn t.chain2 tdi }
  | .external => { t with sdin := tdi }
  | .reserved => t

/-- The bit of the selected data register that is nearest TDO. -/
def State.serialOut (s : State) : Bool :=
  match s.tap.selected with
  | .bypass => s.tap.bypass
  | .idCode => s.tap.idReg.getLsbD 0
  | .scanSelect => s.tap.scShift.getLsbD 0
  | .chain0 => s.tap.chain0.getLsbD 0
  | .chain1 => s.tap.chain1.getLsbD 0
  | .chain2 => s.tap.chain2.getLsbD 0
  | .external => s.pins.sdoutbs
  | .reserved => s.freeBit

/-- A read of an EmbeddedICE register: the value goes to bits 31:0 of scan chain 2 (R800). -/
def State.iceRead (s : State) (a : BitVec 5) : State :=
  let t := iceReadEffect s a
  { t with tap := { s.tap with chain2 := s.tap.chain2.extractLsb' 32 6 ++ iceReadValue s a } }

/-- A write of an EmbeddedICE register (R800). -/
def State.iceWrite (s : State) (a : BitVec 5) (v : Word) : State := { s with ice := Ice.write s.ice a v }

/-- Update-DR (R796, R800). -/
def State.updateDr (s : State) : State :=
  match TapInstr.ofCode s.tap.ir, s.tap.selected with
  | .scanN, _ => { s with tap := { s.tap with screg := s.tap.scShift } }
  | .intest, .chain2 =>
    let a := s.tap.chain2.extractLsb' 32 5
    if s.tap.chain2.getLsbD 37 then s.iceWrite a (s.tap.chain2.extractLsb' 0 32) else s.iceRead a
  | _, _ => s

/-- Words the pending instruction still needs before it can run at debug speed. -/
def State.needs (s : State) (i : Instr) : Nat := if passes i s then Instr.loadWords i else 0

/-- The scanned instruction `id` becomes the pending one after the one before it has run. After a change of state two fillers
are dropped (R774, log 33). No instruction waits for RESTART any more. -/
def State.queueScanned (s t : State) (id : Word) : State :=
  if bitT t.cpsr = bitT s.cpsr then { t with dbg := { t.dbg with ddIn := [], pending := some id, restart := false } }
  else { t with dbg := { t.dbg with ddIn := [], pending := none, discard := 1, restart := false } }

/-- The word on DD has had its DCLK cycle, and the next one stored at debug speed takes its place (R775). -/
def State.nextWord (s : State) : State := { s with dbg := { s.dbg with ddOut := s.dbg.ddOut.tail } }

/-- One DCLK cycle in debug state (R771, R781): the SYSSPEED bit scanned in with this instruction says how the one before it
runs. A load waits until the passes have supplied its words. IA moves on with every pass (R763). DESIGN CHOICE (log 33): a further pass
with SYSSPEED LOW ahead of RESTART takes the request back, and the held instruction runs at debug speed; and the word scanned in with SYSSPEED HIGH, which R781 wants to be
a NOP, is dropped and never runs, whatever it holds. -/
def State.dclk (s0 : State) : Result :=
  let s := s0.nextWord
  let id := s.tap.idCells
  if s.dbg.discard ≠ 0 then .next { s with dbg := { s.dbg with discard := s.dbg.discard - 1 } }
  else
    match s.dbg.pending with
    | none => .next { s with dbg := { s.dbg with pending := some id } }
    | some p =>
      if s.tap.sysspeedCell then .next { s with dbg := { s.dbg with restart := true, scans := s.dbg.scans + 1 } }
      else
        let need := s.needs (s.scanned p)
        let s1 := if need = 0 then s else { s with dbg := { s.dbg with ddIn := s.dbg.ddIn ++ [s.tap.ddCells] } }
        if s1.dbg.ddIn.length < need then
          .next { s1 with dbg := { s1.dbg with restart := false, scans := s1.dbg.scans + 1 } }
        else
          match s1.debugSpeedStep p with
          | .next t => .next (s.queueScanned t id)
          | .fault f => .fault f
          | .refused r => .refused r

/-- RESTART in Run-Test/Idle (R782, R787, R855): a pending load or store runs at system speed; a pending instruction that writes
the PC runs and debug state is left. DESIGN CHOICE (log 33): where the condition of that instruction fails (a B, or a data operation
to R15), debug state is left all the same, and the program resumes at the debug-state PC plus one width. -/
def State.restartCore (s : State) : Result :=
  match s.dbg.restart, s.dbg.pending with
  | true, some p =>
    let s0 := { s with dbg := { s.dbg with restart := false, pending := none } }
    if Instr.isTransfer (s.scanned p) then s0.systemStep p
    else if Instr.isExit (s.scanned p) then
      match s0.debugSpeedStep p with
      | .next t => .next { t.leaveDebug with pc := t.codeAddress t.pc }
      | .fault f => .fault f
      | .refused r => .refused r
    else .refused .notAtSystemSpeed
  | _, _ => .next s

/-- Entering Run-Test/Idle (R771, R782, R798): INTEST clocks the core from the selected chain, RESTART puts
the scan cells in system mode and restarts it (R845). -/
def State.runTestIdle (s : State) : Result :=
  match TapInstr.ofCode s.tap.ir, s.tap.selected with
  | .intest, .chain1 => if s.dbg.inDebug then s.dclk else .refused .productionTest
  | .intest, .chain0 => .refused .productionTest
  | .restart, _ =>
    let t := { s with tap := { s.tap with cells := .normal } }
    if s.dbg.inDebug then t.restartCore else .next t
  | _, _ => .next s

/-- What the rising edge of TCK does in the state the controller is in (R790, R793, R794). -/
def State.tckRise (s : State) (tdi : Bool) : State :=
  match s.tap.st with
  | .captureDr => s.captureDr
  | .shiftDr => { s with tap := s.tap.shiftDr tdi }
  | .captureIr => { s with tap := { s.tap with irShift := 0b0001#4 } }
  | .shiftIr => { s with tap := { s.tap with irShift := shiftIn s.tap.irShift tdi } }
  | _ => s

/-- The controller takes a new state. -/
def State.tapTo (s : State) (st : TapState) : State := { s with tap := { s.tap with st := st } }

/-- What the falling edge of TCK does in the new state (R790, R791, R793, R796, R800). DESIGN CHOICE (log 32): outside Shift-DR and Shift-IR
TDO keeps the last bit shifted out. -/
def State.tckFall (s : State) : State :=
  match s.tap.st with
  | .testLogicReset => { s with tap := s.tap.inReset }
  | .updateIr => { s with tap := s.tap.loadIr s.tap.irShift }
  | .updateDr => s.updateDr
  | .shiftDr => ({ s with tap := { s.tap with tdo := s.serialOut } }).drawn
  | .shiftIr => { s with tap := { s.tap with tdo := s.tap.irShift.getLsbD 0 } }
  | _ => s

/-- One cycle of TCK (R790). While nTRST is LOW the controller stays in reset (R791). -/
def State.tck (s : State) (tms tdi : Bool) : Result :=
  if s.pins.ntrstLow then .next s
  else
    let st := s.tap.st.next tms
    let t := ((s.tckRise tdi).tapTo st).tckFall
    if st = .runTestIdle ∧ s.tap.st ≠ .runTestIdle then t.runTestIdle else .next t

/-- nTRST takes a level (R791, 10_state.md R96, R97). LOW leaves the shift stages, the bypass and ID registers, the scan chains and
TDO as they are (DESIGN CHOICE, log 32: the spec gives them no value after nTRST). -/
def State.trst (s : State) (low : Bool) : State :=
  if low then
    { s with
      pins := { s.pins with ntrstLow := true }
      tap := s.tap.inReset
      ice := Ice.trst s.ice s.draws
      draws := s.draws + 12 }
  else { s with pins := { s.pins with ntrstLow := false } }

end Sys2Proof.Machine
end

