-- ==== Sys2Proof/Machine/Cycle.lean ====
section
/-!
DEFINITION. One step of the core and one move of each other agent: the boundary between two instructions with its priorities
(60_exceptions.md R664, R690, 61_debug.md R750), the fetch (20_memory.md R110 to R112), and what follows an instruction.
-/

namespace Sys2Proof.Machine

/-- The memory that the instruction interface reads at `a` (10_state.md R82, D5). -/
def State.fetchMem (s : State) (a : Word) : List Host.Cell := if s.isSplit a then s.imem else s.mem

/-- A fetch has the width of an instruction (30_encoding.md R170). -/
def State.fetchSize (s : State) : Size := if bitT s.cpsr then .half else .word

/-- The rule that answers a fetch at `a`, if any: the memory system sees InTRANS and InM (60_exceptions.md R724). -/
def State.fetchRule (s : State) (a : Word) : Option MemRule :=
  s.sys.rules.find? fun r => MemRule.covers r a s.fetchSize s.privileged s.mode && r.onFetch

/-- ID[31:0] of a fetch at `a` (20_memory.md R110): the word of memory, or any value where the answer opens it
(R162, log 19). -/
def State.fetchWord (s : State) (a : Word) : Word :=
  if (s.fetchRule a).any fun r => r.answer.opens then s.freeWord else busWordAt s.pins.bigend (s.fetchMem a) a

/-- IA of the next fetch: behind the instructions already in the prefetch queue (10_state.md R77). DESIGN CHOICE (log 16): a prefetch
that runs past the top of the address space wraps to address 0; it is execution there that R50 refuses. -/
def State.fetchAddr (s : State) : Word := s.pc + BitVec.ofNat 32 s.pipe.queue.length * s.width

/-- The probe of the next fetch (61_debug.md R805). -/
def State.fetchSeen (s : State) : Probe := fetchProbe s.fetchAddr (s.fetchWord s.fetchAddr) (bitT s.cpsr) s.privileged

/-- One fetch: the word joins the prefetch queue with its IABORT mark (20_memory.md R161) and its breakpoint mark, the OR of
IEBKPT, the units and the vector catch of the first fetch after an exception entry (61_debug.md R744, R746, R815). DBGACK masks one
fetch less (R764). -/
def State.fetchNext (s : State) : State :=
  let a := s.fetchAddr
  let rule := s.fetchRule a
  let mark := s.pins.dbgen && (s.pins.iebkpt || s.pipe.caught || Ice.hit s.ice s.pins s.fetchSeen)
  { s with
    pipe := { s.pipe with
      queue := s.pipe.queue ++ [⟨s.fetchWord a, rule.any (fun r => r.answer.aborts), mark⟩]
      caught := false
      ackFetches := s.pipe.ackFetches - 1 }
    ice := Ice.see s.ice s.pins s.fetchSeen
    draws := s.draws + 1 }

/-- Several fetches. -/
def State.fill : Nat → State → State
  | 0, s => s
  | n + 1, s => State.fill n s.fetchNext

/-- The prefetch queue holds the instruction at the PC and the two behind it when that instruction enters execute (10_state.md
R77; DEDUCED, log 43). -/
def State.filled (s : State) : State := State.fill (3 - s.pipe.queue.length) s

/-- The fetched instruction at the PC. -/
def State.head (s : State) : Slot := s.pipe.queue.headD ⟨0, false, false⟩

/-- The instruction at the PC. -/
def State.fetched (s : State) : Instr := decodeCode (s.codeOf s.pc s.head.id)

/-- IABORT was asserted for its fetch (20_memory.md R110, R161). -/
def State.fetchAborts (s : State) : Bool := s.head.aborted

/-- It carries a breakpoint mark (61_debug.md R746). -/
def State.marked (s : State) : Bool := s.head.marked

/-- A watchpoint one instruction further on its way (61_debug.md R752). -/
def WatchStage.advance : WatchStage → WatchStage
  | .hit => .armed
  | .armed => .due
  | w => w

/-- What follows a step of the core that completed: the watchpoint latch moves on (R752) and a single step is over (R820). An
instruction that busy-waits has not completed. -/
def State.afterStep (s : State) : State :=
  if s.pipe.busyWait then s
  else { s with dbg := { s.dbg with
    watch := WatchStage.advance s.dbg.watch
    stepDue := s.dbg.stepDue || s.dbg.stepArmed
    stepArmed := false } }

/-- A result with `afterStep` applied to a next state. -/
def finish : Result → Result
  | .next t => .next t.afterStep
  | .fault f => .fault f
  | .refused r => .refused r

/-- Execute instruction `i` unless the LDM (2) hazard forbids it (70_reset_and_hazards.md R921). -/
def State.run (s : State) (i : Instr) : Result :=
  if userBankHazard i s then .fault .userBankHazard else finish (exec i s.begin)

/-- The instruction at the head of the prefetch queue reaches execute: Prefetch Abort, then the breakpoint mark, then the
instruction (R750). A busy-waiting coprocessor instruction is in execute already (46_arm_coprocessor.md R473). A breakpoint
mark behind a watchpoint that is still on its way enters as a breakpoint (DESIGN CHOICE, log 44: R755 gives the resume point
only). -/
def State.execute (s : State) : Result :=
  if s.pipe.busyWait then s.run s.fetched
  else if s.fetchAborts then finish (.next s.noExec.takePrefetchAbort)
  else if s.marked then .next (s.enterDebug .breakpoint)
  else if s.pc ∈ s.pipe.stale then .fault .staleFetch
  else s.run s.fetched

/-- FIQ is taken at this boundary (60_exceptions.md R679, R690, R694); an early release is free (R692, D21, log 22). -/
def State.fiqDue (s : State) : Bool :=
  ifen s && !maskF s.cpsr && (s.pins.nfiqLow || (s.pins.fiqPulse && Config.freeBit s.draws))

/-- IRQ is taken at this boundary, FIQ aside (R678, R690, R694). -/
def State.irqDue (s : State) : Bool :=
  ifen s && !maskI s.cpsr && (s.pins.nirqLow || (s.pins.irqPulse && Config.freeBit (s.draws + 1)))

/-- The interrupt inputs have been sampled: an early release is forgotten (10_state.md R78, log 22). -/
def State.sampled (s : State) : State :=
  if s.pins.fiqPulse || s.pins.irqPulse then
    { s with pins := { s.pins with fiqPulse := false, irqPulse := false }, draws := s.draws + 2 }
  else s

/-- FIQ or IRQ is taken at this boundary. -/
def State.interruptDue (s : State) : Bool := s.fiqDue || s.irqDue

/-- A debug request enters debug state at this boundary (61_debug.md R757). DESIGN CHOICE (log 44): while a coprocessor instruction
busy-waits the request is held off, so that an enabled interrupt goes first; and the request is a level, so that one withdrawn before a
boundary at which it could enter is forgotten. -/
def State.requestDue (s : State) : Bool := dbgrqi s && !s.pipe.busyWait

/-- A due watchpoint enters debug state at this boundary: with an interrupt pending the exception entry comes first (61_debug.md R754),
but a finished single step and a debug request go before interrupts (R820, 60_exceptions.md R694). -/
def State.watchDue (s : State) : Bool := s.dbg.watch == .due && (s.dbg.stepDue || s.requestDue || !s.interruptDue)

/-- The boundary before an instruction (61_debug.md R750): a latched watchpoint or a finished single step, a debug request, FIQ,
IRQ, and then the instruction. A request at the boundary between a watchpointed instruction and the next enters at once
(DESIGN CHOICE, log 44: R752 does not say whether the next one still completes). So are two more orders (log 44): a due watchpoint goes
before a vector-catch mark of the same exception entry (R710, R711), and an enabled interrupt before such a mark, whose fetch is then
flushed and the catch lost (R750 against R815). -/
def State.boundary (s : State) : Result :=
  if s.watchDue then .next (s.enterDebug .watchpoint)
  else if s.dbg.stepDue then .next (s.enterDebug .singleStep)
  else if s.requestDue then .next (s.enterDebug .request)
  else if s.fiqDue then finish (.next s.sampled.noExec.takeFiq)
  else if s.irqDue then finish (.next s.sampled.noExec.takeIrq)
  else s.sampled.execute

/-- A step of the core: the fetches that fill the prefetch queue, and the boundary. In reset and in debug state the core does
nothing by itself (R901, R760). DESIGN CHOICE (log 16): behind the last instruction of the address space the fault comes ahead of an
interrupt or a debug entry that is due at that boundary. -/
def State.coreStep (s : State) : Result :=
  if s.inReset || s.dbg.inDebug then .next s
  else if s.cutOff then .refused .productionTest
  else if s.pipe.wrapped then .fault .ranPastTop
  else s.filled.boundary

/-- One fetch of those that the next step of the core begins with (20_memory.md R110, 61_debug.md R746): between two of them the
inputs can change. Where that step would make none, this makes none. The outputs of the latest step of the core stay (DESIGN CHOICE,
log 36). -/
def State.fetchStep (s : State) : Result :=
  if s.inReset || s.dbg.inDebug then .next s
  else if s.cutOff then .refused .productionTest
  else if s.pipe.wrapped || decide (3 ≤ s.pipe.queue.length) then .next s
  else .next s.fetchNext

/-- An input pin takes a level (62_signals.md R871). -/
def Pins.drive (p : Pins) (pin : Pin) (high : Bool) : Pins :=
  match pin with
  | .nirq => { p with nirqLow := !high, irqPulse := p.irqPulse || (p.nirqLow && high) }
  | .nfiq => { p with nfiqLow := !high, fiqPulse := p.fiqPulse || (p.nfiqLow && high) }
  | .edbgrq => { p with edbgrq := high }
  | .iebkpt => { p with iebkpt := high }
  | .dewpt => { p with dewpt := high }
  | .extern0 => { p with extern0 := high }
  | .extern1 => { p with extern1 := high }
  | .sdoutbs => { p with sdoutbs := high }

/-- Another bus master writes a byte (D6). Instructions already in the prefetch queue stay as they were fetched (10_state.md
R77, log 43). -/
def State.busWrite (s : State) (a : Word) (v : Byte) : State := { s with mem := Memory.write s.mem a.toNat v }

/-- The store behind the instruction interface alone changes in one byte (D5, log 19). -/
def State.codeWrite (s : State) (a : Word) (v : Byte) : State := { s with imem := Memory.write s.imem a.toNat v }

/-- nRESET goes LOW while the core steps, after `k` data accesses (70_reset_and_hazards.md R900). DESIGN CHOICE (log 24): a transfer
of coprocessor 14 that it strikes has been made, an external coprocessor's acceptance and the register transfer of its MCR or MRC too,
whatever `k` is, and a step that the model refuses or faults has made no access and written no
register. -/
def State.resetDuring (s : State) (k : Nat) : State :=
  match ({ s with wrote := [], sys := { s.sys with budget := some k } }).coreStep with
  | .next t => { s.takeReset t t.wrote with inReset := true }
  | .fault _ => { s.takeReset s [] with inReset := true }
  | .refused _ => { s.takeReset s [] with inReset := true }

/-- nRESET goes LOW in debug state: the spec refuses it (92_eei_decisions.md D16), or it resets the core as elsewhere (61_debug.md R762,
60_exceptions.md R673; log 14, log 45). -/
def State.struckBy (s t : State) : Result := if s.pins.strict && s.dbg.inDebug then .refused .resetInDebug else .next t

/-- nRESET goes HIGH: the first fetch will be from the reset vector, with its vector-catch mark (R902, R906, 61_debug.md R815). -/
def State.releaseReset (s : State) : State :=
  if s.inReset then
    { s with inReset := false, pins := s.pins.forgotten, pipe := { Pipe.clear with caught := s.catches 0 } }
  else s

/-- A coprocessor's answer joins the queue (46_arm_coprocessor.md R471). -/
def State.reply (s : State) (rs : List CpReply) : State := { s with cop := { s.cop with replies := s.cop.replies ++ rs } }

/-- `ice_read` and `ice_write` (61_debug.md R856) reach the macrocell through the TAP controller, which nTRST LOW holds in reset. -/
def State.viaTap (s t : State) : State := if s.pins.ntrstLow then s else t

/-- One move of one agent (00_scope.md R16, 61_debug.md R856). DESIGN CHOICE (log 32): `debugStep`, `systemStep` and `exitDebug` take effect
while nTRST is LOW too. -/
def State.move (s : State) (m : Move) : Result :=
  match m with
  | .core => s.coreStep
  | .fetch => s.fetchStep
  | .pin p high => .next { s with pins := Pins.drive s.pins p high }
  | .busWrite a v => .next (s.busWrite a v)
  | .codeWrite a v => .next (s.codeWrite a v)
  | .memRules rules => .next { s with sys := { s.sys with rules := rules } }
  | .othersWrite gaps => .next { s with sys := { s.sys with others := gaps } }
  | .cpReply r => .next (s.reply [r])
  | .cpCodes cycles data => .next (s.reply (CpReply.ofCodes data 0 (cycles.map Chs.combine)))
  | .tck tms tdi => s.tck tms tdi
  | .trst low => .next (s.trst low)
  | .reset low => if low then s.struckBy { s.takeReset s [] with inReset := true } else .next s.releaseReset
  | .resetDuring k => s.struckBy (s.resetDuring k)
  | .commsSync toDebugger => .next { s with ice := s.ice.sync toDebugger }
  | .iceRead a => .next (s.viaTap (s.iceRead a))
  | .iceWrite a v => .next (s.viaTap (s.iceWrite a v))
  | .debugStep id ddIn => s.debugStep id ddIn
  | .systemStep id => s.systemStep id
  | .exitDebug target => s.exitDebug target

/-- The byte store of `withFetchWord`: `bytes` from the PC up, in the memory the fetch reads; nothing is prefetched. -/
def State.placeCode (s : State) (bytes : List Byte) : State :=
  let cells := bytes.zipIdx.map fun x => (byteAddr s.pc x.2, x.1)
  { s.refill with
    mem := if s.isSplit s.pc then s.mem else Memory.writeAll s.mem cells
    imem := if s.isSplit s.pc then Memory.writeAll s.imem cells else s.imem }

end Sys2Proof.Machine
end

