-- ==== Sys2Proof/Machine/Step.lean ====
section
/-! DEFINITION. The step: the first move of the schedule, or a step of the core (log 36); and `withFetchWord`. -/

namespace Sys2Proof.Machine

/-- One step of the machine. -/
def step (s : State) : Host.Outcome State Fault Refusal :=
  match s.schedule with
  | [] => s.coreStep
  | m :: rest => ({ s with schedule := rest }).move m

/-- `s` with the instruction of a table row stored at the PC: 32 bits are an ARM word in ARM state, 16 bits a Thumb halfword in
Thumb state followed by a halfword of zeros. -/
def State.withFetchWord (s : State) (nbits w : Nat) : State :=
  if nbits = 16 then
    (s.setCpsr (withT s.cpsr true)).placeCode
      (Code.bytes s.pins.bigend (.thumb (BitVec.ofNat 16 w)) ++ [0#8, 0#8])
  else (s.setCpsr (withT s.cpsr false)).placeCode (Code.bytes s.pins.bigend (.arm (BitVec.ofNat 32 w)))

end Sys2Proof.Machine
end

