-- ==== Sys2Proof/Safety.lean ====
section
/-!
DEFINITION. What statements say about states: the invariant of the machine, when an instruction runs and an access succeeds,
the frames, and the effects of each kind of instruction in the spec's own terms (integers, bits, bytes) where the machine
computes them otherwise.
-/

namespace Sys2Proof.Machine

/-! ## The invariant -/

/-- Reserved bits 27:8 of a PSR are zero (42_arm_status_register.md R327, D12). -/
def psrOk (p : Word) : Bool := p &&& 0x0FFFFF00#32 == 0#32

/-- The PC is aligned for the state the core is in (10_state.md R46). -/
def pcOk (s : State) : Bool := if bitT s.cpsr then !s.pc.getLsbD 0 else s.pc.extractLsb' 0 2 == 0#2

/-- Bit 3 of a control mask register is always clear (10_state.md R65). -/
def watchOk (u : Watch) : Bool := !u.ctlMask.getLsbD 3

/-- The invariant of the machine: both memories canonical, the PC aligned, the mode one of the seven, the reserved bits of every
PSR zero, the control mask registers' bit 3 clear, no more than three instructions fetched ahead (10_state.md R77), and bit 0 of
TAPID set (R76). -/
def Inv (s : State) : Prop :=
  Memory.wf s.mem = true ∧ Memory.wf s.imem = true ∧ pcOk s = true ∧ legalMode s.mode = true ∧ psrOk s.cpsr = true ∧
    (∀ k : Fin 5, psrOk (s.spsr.get k) = true) ∧ watchOk s.ice.w0 = true ∧ watchOk s.ice.w1 = true ∧
    s.pipe.queue.length ≤ 3 ∧ s.pins.tapid.getLsbD 0 = true

/-! ## When an instruction runs -/

/-- A result that is a next state. -/
def Completes (r : Result) : Prop := ∃ t, r = .next t

/-- The instruction's condition passes (00_scope.md R21) and no field of it is UNPREDICTABLE. -/
def Runs (i : Instr) (s : State) : Prop := Instr.defect i = none ∧ passes i s = true

/-- The read reaches memory: not a debug-speed access, no reset on its way, no rule of the memory system about it. -/
def Readable (s : State) (a : Word) (size : Size) (user : Bool) : Prop :=
  s.debugSpeed = false ∧ s.sys.budget = none ∧ s.dataRule a size false user = none

/-- The write reaches memory. -/
def Writable (s : State) (a : Word) (size : Size) (user : Bool) : Prop :=
  s.debugSpeed = false ∧ s.sys.budget = none ∧ s.dataRule a size true user = none

/-- The access is made and answered with an abort. -/
def Aborts (s : State) (a : Word) (size : Size) (write user : Bool) : Prop :=
  s.debugSpeed = false ∧ s.sys.budget = none ∧ s.dataAborts a size write user = true

/-- The core itself moves: no move of another agent is due, it is neither in reset nor in debug state nor cut off for a production
test, and it has not run past the top of memory. -/
def Awake (s : State) : Prop :=
  s.schedule = [] ∧ s.inReset = false ∧ s.dbg.inDebug = false ∧ s.cutOff = false ∧ s.pipe.wrapped = false

/-- No debug entry is due at this boundary ahead of the interrupts (61_debug.md R750). -/
def NoDebugDue (s : State) : Prop := s.dbg.watch ≠ .due ∧ s.dbg.stepDue = false ∧ dbgrqi s = false

/-- A boundary at which an instruction enters execute: nothing of 61_debug.md R750 is due. -/
def Quiet (s : State) : Prop :=
  Awake s ∧ NoDebugDue s ∧ s.filled.fiqDue = false ∧ s.filled.irqDue = false ∧ s.pipe.busyWait = false

/-- A boundary at which the fetched instruction executes: it is neither aborted nor marked nor stale. -/
def Ready (s : State) : Prop :=
  Quiet s ∧ s.filled.fetchAborts = false ∧ s.filled.marked = false ∧ s.pc ∉ s.pipe.stale

/-! ## Frames -/

/-- The byte at an address of the data interface. -/
def State.byteAt (s : State) (a : Nat) : Byte := Memory.read s.mem a

/-- No cell of the register file changes but those of the listed registers in the bank of mode `m`; R15 is no cell. -/
def OnlyRegs (m : BitVec 5) (rs : List Reg) (s t : State) : Prop :=
  ∀ k : Fin 30, (∀ r ∈ rs, r ≠ 15#4 → bankIndex m r ≠ k) → t.regs.get k = s.regs.get k

/-- Everything but the general registers, the PC, the CPSR, the pipeline traces, the outputs INSTREXEC, PASS and LATECANCEL, the
list of written cells and the count of free values is unchanged: memory, SPSRs, bus, what the data interface shows, coprocessors and
the whole debug logic. -/
def SameOutside (s t : State) : Prop :=
  t.spsr = s.spsr ∧ t.mem = s.mem ∧ t.imem = s.imem ∧ t.pins = s.pins ∧ t.sys = s.sys ∧ t.cop = s.cop ∧ t.bus = s.bus ∧ t.port = s.port ∧
    t.ice = s.ice ∧ t.tap = s.tap ∧ t.dbg = s.dbg ∧ t.inReset = s.inReset ∧ t.schedule = s.schedule

/-- `SameOutside` but for the bytes of the data memory. -/
def SameButMemory (s t : State) : Prop :=
  t.spsr = s.spsr ∧ t.imem = s.imem ∧ t.pins = s.pins ∧ t.sys = s.sys ∧ t.cop = s.cop ∧ t.bus = s.bus ∧ t.port = s.port ∧
    t.ice = s.ice ∧ t.tap = s.tap ∧ t.dbg = s.dbg ∧ t.inReset = s.inReset ∧ t.schedule = s.schedule

/-- Every byte of memory is unchanged but those of the list, which take their values. -/
def Stored (bytes : List (Nat × Byte)) (s t : State) : Prop :=
  (∀ x, (∀ y ∈ bytes, y.1 ≠ x) → t.byteAt x = s.byteAt x) ∧
    (Memory.wf s.mem = true → ∀ y ∈ bytes, t.byteAt y.1 = y.2)

/-- Execution goes on at the next instruction. -/
def FallsThrough (s t : State) : Prop := t.pc = s.pc + s.width

/-- Control bits 27:0 of the status register are unchanged. -/
def SameControl (p q : Word) : Prop := q.extractLsb' 0 28 = p.extractLsb' 0 28

/-! ## Data processing in unbounded integers (40_arm_data_processing.md R253, R262 to R278) -/

/-- The exact sum or difference of an arithmetic operation; none for a logical one. -/
def DpOp.exact (op : DpOp) (c : Bool) (a b : Int) : Option Int :=
  match op with
  | .sub | .cmp => some (a - b)
  | .rsb => some (b - a)
  | .add | .cmn => some (a + b)
  | .adc => some (a + b + if c then 1 else 0)
  | .sbc => some (a - b - if c then 0 else 1)
  | .rsc => some (b - a - if c then 0 else 1)
  | .and | .eor | .tst | .teq | .orr | .mov | .bic | .mvn => none

/-- The result of a logical operation. -/
def DpOp.logic (op : DpOp) (a b : Word) : Word :=
  match op with
  | .and | .tst => a &&& b
  | .eor | .teq => a ^^^ b
  | .orr => a ||| b
  | .bic => a &&& ~~~b
  | .mvn => ~~~b
  | .mov | .sub | .rsb | .add | .adc | .sbc | .rsc | .cmp | .cmn => b

/-- Is the operation a subtraction, whose C flag is NOT borrow? -/
def DpOp.subtracts (op : DpOp) : Bool :=
  op == .sub || op == .rsb || op == .sbc || op == .rsc || op == .cmp

/-- TST, TEQ, CMP and CMN write no register. -/
def DpOp.compares (op : DpOp) : Bool := op == .tst || op == .teq || op == .cmp || op == .cmn

/-- `r` is the result of the operation on `a` and `b`, modulo 2^32. -/
def DpResult (op : DpOp) (c : Bool) (a b r : Word) : Prop :=
  match op.exact c a.toNat b.toNat with
  | some u => r = BitVec.ofInt 32 u
  | none => r = op.logic a b

/-- `q` is the CPSR after the operation gave `r` from `a` and `b` under CPSR `p` with shifter carry `sh` (R253). -/
def DpFlags (op : DpOp) (p a b : Word) (sh : Bool) (r q : Word) : Prop :=
  SameControl p q ∧ flagN q = r.getLsbD 31 ∧ flagZ q = decide (r = 0#32) ∧
    match op.exact (flagC p) a.toNat b.toNat, op.exact (flagC p) a.toInt b.toInt with
    | some u, some e =>
      flagC q = (if op.subtracts then decide (0 ≤ u) else decide (2 ^ 32 ≤ u)) ∧ flagV q = decide (r.toInt ≠ e)
    | _, _ => flagC q = sh ∧ flagV q = flagV p

/-- The instruction completes as operation `op` on `a` and `b` into `rd`: the result, the flags when it writes them, and the
frame. -/
def DataDone (i : Instr) (s : State) (op : DpOp) (setFlags : Bool) (rd : Reg) (a b : Word) (sh : Bool) : Prop :=
  ∃ t r, exec i s = .next t ∧ DpResult op (flagC s.cpsr) a b r ∧
    (if op.compares then t.regs = s.regs else t.bankReg s.mode rd = r ∧ OnlyRegs s.mode [rd] s t) ∧
    (if setFlags || op.compares then DpFlags op s.cpsr a b sh r t.cpsr else t.cpsr = s.cpsr) ∧
    FallsThrough s t ∧ SameOutside s t

/-! ## Transfers -/

/-- The access of a transfer as it appears on the data interface. -/
def State.event (s : State) (a : Word) (size : Size) (write : Bool) (value : Word) (user : Bool) (b : Beat) : BusEvent :=
  ⟨a, size, write, value, s.dnTrans user, s.dnMode user, b.lock, false, b.seq, b.more⟩

/-- The state after an access that was answered: only the bus trace, the comparators and the watchpoint latch differ. -/
def State.afterAccess (s : State) (a : Word) (size : Size) (write : Bool) (value : Word) (user : Bool) (b : Beat) (w : Word) : State :=
  s.accessed (s.event a size write value user b) w

/-- The value a read of `size` at `a` gives (20_memory.md R120). -/
def State.busRead (s : State) (size : Size) (a : Word) : Word :=
  lane s.pins.bigend size a (busWordAt s.pins.bigend s.mem a)

/-- The instruction completes as a load of kind `k` from `a` into `rd` with write-back `wb`. -/
def LoadDone (i : Instr) (s : State) (k : LoadKind) (a : Word) (user : Bool) (wb : Option (Reg × Word)) (rd : Reg) : Prop :=
  ∃ t, exec i s = .next t ∧ t.bankReg s.mode rd = k.value a (s.busRead k.size a) ∧
    (∀ x ∈ wb, t.bankReg s.mode x.1 = x.2) ∧ OnlyRegs s.mode (rd :: wb.toList.map Prod.fst) s t ∧
    t.cpsr = s.cpsr ∧ FallsThrough s t ∧ (∀ x, t.byteAt x = s.byteAt x) ∧
    SameOutside (s.afterAccess a k.size false (s.busRead k.size a) user .single (busWordAt s.pins.bigend s.mem a)) t

/-- The instruction completes as a store of `v` to `a` with write-back `wb`. -/
def StoreDone (i : Instr) (s : State) (size : Size) (a v : Word) (user : Bool) (wb : Option (Reg × Word)) : Prop :=
  ∃ t, exec i s = .next t ∧ Stored (storeBytes s.pins.bigend size a v) s t ∧
    (∀ x ∈ wb, t.bankReg s.mode x.1 = x.2) ∧ OnlyRegs s.mode (wb.toList.map Prod.fst) s t ∧
    t.cpsr = s.cpsr ∧ FallsThrough s t ∧
    SameButMemory (s.afterAccess a size true (ddCopies size v) user .single (ddCopies size v)) t

/-- The addresses of addressing modes 2 and 3, as sums and differences modulo 2^32, and which forms write the base back
(43_arm_load_store.md R340 to R342). -/
def AddressForms (s : State) : Prop :=
  (∀ (u : Bool) (base off : Word), ((offsetBy u base off).toNat : Int) =
      (if u then (base.toNat : Int) + off.toNat else (base.toNat : Int) - off.toNat) % 2 ^ 32) ∧
    (∀ imm : BitVec 12, (imm12Offset imm).toNat = imm.toNat) ∧
    (∀ o : ShiftImm, shiftedOffset s o = (op2ShiftImm s o).val) ∧
    (∀ (a : Mode2) (base target : Word), (Mode2.address a base target = if a.idx = .post then base else target) ∧
      (Mode2.writeBack a target = if a.idx = .offset then none else some (a.rn, target))) ∧
    (∀ m : Mode3,
      ((Mode3.offset s m).toNat = if m.i then 16 * m.hi.toNat + m.lo.toNat else (s.reg m.lo).toNat) ∧
      Mode3.target s m = offsetBy m.u (s.reg m.rn) (Mode3.offset s m) ∧
      (Mode3.address s m = if m.p then Mode3.target s m else s.reg m.rn) ∧
      (Mode3.writeBack s m = if m.p ∧ ¬ m.w then none else some (m.rn, Mode3.target s m)))

/-- A halfword address is even (20_memory.md R132). -/
def EvenFor (size : Size) (a : Word) : Prop := size = .half → a.getLsbD 0 = false

/-! ## Exceptions -/

/-- `t` is `s` after taking exception `e` with link value `link` (60_exceptions.md R670): the registers. -/
def Enters (e : Exc) (link : Word) (s t : State) : Prop :=
  t.bankReg e.mode 14#4 = link ∧ OnlyRegs e.mode [14#4] s t ∧ t.spsrOf e.mode = some s.cpsr ∧
    (∀ k : Fin 5, spsrIndex e.mode ≠ some k → t.spsr.get k = s.spsr.get k) ∧ t.mode = e.mode ∧
    bitT t.cpsr = false ∧ maskI t.cpsr = true ∧ maskF t.cpsr = (maskF s.cpsr || e == .fiq) ∧
    t.cpsr.extractLsb' 8 24 = s.cpsr.extractLsb' 8 24 ∧
    t.pc = (if s.pins.hivecs then 0xFFFF0000#32 else 0#32) + BitVec.ofNat 32 (4 * e.vector)

/-- What no exception entry touches: memory, bus, data interface, pins, the EmbeddedICE registers and the TAP controller. -/
def SameWorld (s t : State) : Prop :=
  t.mem = s.mem ∧ t.imem = s.imem ∧ t.pins = s.pins ∧ t.sys = s.sys ∧ t.bus = s.bus ∧ t.port = s.port ∧ t.ice = s.ice ∧
    t.tap = s.tap ∧ t.inReset = s.inReset ∧ t.schedule = s.schedule

/-! ## Block transfers -/

/-- No other bus master writes between the accesses of the instruction (20_memory.md R142). -/
def Alone (s : State) : Prop := s.sys.others = []

/-- The addresses of a block of `n` words from `start` are all readable, and no other master comes between. -/
def BlockReadable (s : State) (start : Word) (n : Nat) : Prop :=
  Alone s ∧ ∀ k, k < n → Readable s (wordAddr start k) .word false

/-- The addresses of a block of `n` words from `start` are all writable, and no other master comes between. -/
def BlockWritable (s : State) (start : Word) (n : Nat) : Prop :=
  Alone s ∧ ∀ k, k < n → Writable s (wordAddr start k) .word false

/-- Register `rl[k]` of the bank of mode `m` holds the word at the k-th address of the block. -/
def BlockLoaded (m : BitVec 5) (rl : List Reg) (start : Word) (s t : State) : Prop :=
  ∀ k (h : k < rl.length), rl[k] ≠ 15#4 → t.bankReg m rl[k] = busWordAt s.pins.bigend s.mem (wordAddr start k)

/-- The bytes that a block of words stores, at the addresses of the block. -/
def blockBytes (bigend : Bool) (start : Word) (vals : List Word) : List (Nat × Byte) :=
  vals.zipIdx.flatMap fun x => storeBytes bigend .word (wordAddr start x.2) x.1

/-- What a transfer of several words leaves alone besides registers and memory: a data access touches only the bus trace, the
comparators and the watchpoint latch. -/
def SameButAccesses (s t : State) : Prop :=
  t.spsr = s.spsr ∧ t.imem = s.imem ∧ t.pins = s.pins ∧ t.sys = s.sys ∧ t.tap = s.tap ∧ t.inReset = s.inReset ∧
    t.schedule = s.schedule ∧ t.ice.dbgCtl = s.ice.dbgCtl ∧ t.ice.vecCatch = s.ice.vecCatch ∧
    t.ice.commsRead = s.ice.commsRead ∧ t.ice.commsWrite = s.ice.commsWrite ∧ t.ice.wBit = s.ice.wBit ∧
    t.ice.rBit = s.ice.rBit ∧ t.ice.wCore = s.ice.wCore ∧ t.ice.rCore = s.ice.rCore ∧ t.ice.wDbg = s.ice.wDbg ∧
    t.ice.rDbg = s.ice.rDbg ∧ t.dbg.inDebug = s.dbg.inDebug


/-- A load of kind `k` that runs, into a register other than R15, completes on a readable address and is refused on an odd
halfword address (20_memory.md R132). -/
def LoadTo (i : Instr) (s : State) (k : LoadKind) (a : Word) (user : Bool) (wb : Option (Reg × Word)) (rd : Reg) : Prop :=
  Runs i s → (Readable s a k.size user → EvenFor k.size a → rd ≠ 15#4 → LoadDone i s k a user wb rd) ∧
    (¬ EvenFor k.size a → exec i s = .refused (.unpredictable .halfUnaligned))

/-- A store that runs completes on a writable address and is refused on an odd halfword address. -/
def StoreTo (i : Instr) (s : State) (size : Size) (a v : Word) (user : Bool) (wb : Option (Reg × Word)) : Prop :=
  Runs i s → (Writable s a size user → EvenFor size a → StoreDone i s size a v user wb) ∧
    (¬ EvenFor size a → exec i s = .refused (.unpredictable .halfUnaligned))

/-- The spec refuses a Thumb word access at an address that is not word aligned (48_thumb_memory_branch.md R591, U11), and so does a run
that makes its refusals (log 45); at debug speed no access is made. -/
def RefusesUnaligned (i : Instr) (s : State) : Prop :=
  s.pins.strict = true → s.debugSpeed = false → exec i s = .refused (.unpredictable .wordUnaligned)

/-- A Thumb word load from an address that is not word aligned is refused, or, in a run that does not refuse it, completes with data
the spec leaves open in `rd` (R591), at debug speed in any run. -/
def LoadOpen (i : Instr) (s : State) (a : Word) (rd : Reg) : Prop :=
  Runs i s → RefusesUnaligned i s ∧ (s.debugSpeed = true ∨ s.pins.strict = false ∧ Readable s a .word false →
    ∃ t, exec i s = .next t ∧ OnlyRegs s.mode [rd] s t ∧ t.cpsr = s.cpsr ∧
      FallsThrough s t ∧ (∀ x, t.byteAt x = s.byteAt x) ∧ SameButAccesses s t)

/-- A Thumb word store to an address that is not word aligned is refused, or, in a run that does not refuse it, completes with data
the spec leaves open in the word there; at debug speed the register `v` goes to the DD cells (61_debug.md R760, R774). -/
def StoreOpen (i : Instr) (s : State) (a v : Word) : Prop :=
  Runs i s → RefusesUnaligned i s ∧
    (s.pins.strict = false → Writable s a .word false →
      ∃ t w, exec i s = .next t ∧ Stored (storeBytes s.pins.bigend .word a w) s t ∧
        t.regs = s.regs ∧ t.cpsr = s.cpsr ∧ FallsThrough s t ∧ SameButAccesses s t) ∧
    (s.debugSpeed = true → ∃ t, exec i s = .next t ∧ t.dbg.ddOut = s.dbg.ddOut ++ [v] ∧
      t.regs = s.regs ∧ t.cpsr = s.cpsr ∧ t.mem = s.mem ∧ FallsThrough s t ∧ SameButAccesses s t)

/-- The single data access of a load or store: its address, size, direction and user flag, and whether it loads R15. -/
structure Single where
  addr : Word
  size : Size
  write : Bool
  user : Bool
  toPc : Bool
deriving DecidableEq, Repr

/-- The single data access of an instruction of 43_arm_load_store.md or of the Thumb formats 6 to 11; none for the others. -/
def singleAccess (s : State) : Instr → Option Single
  | .ldrImm _ a imm => some ⟨Mode2.address a (s.reg a.rn) (offsetBy a.u (s.reg a.rn) (imm12Offset imm)), .word, false, false, a.rd == 15#4⟩
  | .ldrbImm _ a imm => some ⟨Mode2.address a (s.reg a.rn) (offsetBy a.u (s.reg a.rn) (imm12Offset imm)), .byte, false, false, false⟩
  | .strImm _ a imm => some ⟨Mode2.address a (s.reg a.rn) (offsetBy a.u (s.reg a.rn) (imm12Offset imm)), .word, true, false, false⟩
  | .strbImm _ a imm => some ⟨Mode2.address a (s.reg a.rn) (offsetBy a.u (s.reg a.rn) (imm12Offset imm)), .byte, true, false, false⟩
  | .ldrReg _ a o => some ⟨Mode2.address a (s.reg a.rn) (offsetBy a.u (s.reg a.rn) (shiftedOffset s o)), .word, false, false, a.rd == 15#4⟩
  | .ldrbReg _ a o => some ⟨Mode2.address a (s.reg a.rn) (offsetBy a.u (s.reg a.rn) (shiftedOffset s o)), .byte, false, false, false⟩
  | .strReg _ a o => some ⟨Mode2.address a (s.reg a.rn) (offsetBy a.u (s.reg a.rn) (shiftedOffset s o)), .word, true, false, false⟩
  | .strbReg _ a o => some ⟨Mode2.address a (s.reg a.rn) (offsetBy a.u (s.reg a.rn) (shiftedOffset s o)), .byte, true, false, false⟩
  | .ldrtImm _ _ rn _ _ => some ⟨s.reg rn, .word, false, true, false⟩
  | .ldrbtImm _ _ rn _ _ => some ⟨s.reg rn, .byte, false, true, false⟩
  | .strtImm _ _ rn _ _ => some ⟨s.reg rn, .word, true, true, false⟩
  | .strbtImm _ _ rn _ _ => some ⟨s.reg rn, .byte, true, true, false⟩
  | .ldrtReg _ _ rn _ _ => some ⟨s.reg rn, .word, false, true, false⟩
  | .ldrbtReg _ _ rn _ _ => some ⟨s.reg rn, .byte, false, true, false⟩
  | .strtReg _ _ rn _ _ => some ⟨s.reg rn, .word, true, true, false⟩
  | .strbtReg _ _ rn _ _ => some ⟨s.reg rn, .byte, true, true, false⟩
  | .ldrh _ m => some ⟨Mode3.address s m, .half, false, false, false⟩
  | .ldrsh _ m => some ⟨Mode3.address s m, .half, false, false, false⟩
  | .ldrsb _ m => some ⟨Mode3.address s m, .byte, false, false, false⟩
  | .strh _ m => some ⟨Mode3.address s m, .half, true, false, false⟩
  | .tLdrPc _ n => some ⟨(s.pcOperand &&& 0xFFFFFFFC#32) + ((n ++ 0#2).setWidth 32), .word, false, false, false⟩
  | .tLdrReg ro rb _ => some ⟨s.reg (lowReg rb) + s.reg (lowReg ro), .word, false, false, false⟩
  | .tLdrhReg ro rb _ => some ⟨s.reg (lowReg rb) + s.reg (lowReg ro), .half, false, false, false⟩
  | .tLdshReg ro rb _ => some ⟨s.reg (lowReg rb) + s.reg (lowReg ro), .half, false, false, false⟩
  | .tLdrbReg ro rb _ => some ⟨s.reg (lowReg rb) + s.reg (lowReg ro), .byte, false, false, false⟩
  | .tLdsbReg ro rb _ => some ⟨s.reg (lowReg rb) + s.reg (lowReg ro), .byte, false, false, false⟩
  | .tStrReg ro rb _ => some ⟨s.reg (lowReg rb) + s.reg (lowReg ro), .word, true, false, false⟩
  | .tStrhReg ro rb _ => some ⟨s.reg (lowReg rb) + s.reg (lowReg ro), .half, true, false, false⟩
  | .tStrbReg ro rb _ => some ⟨s.reg (lowReg rb) + s.reg (lowReg ro), .byte, true, false, false⟩
  | .tLdrImm n rb _ => some ⟨s.reg (lowReg rb) + (n ++ 0#2).setWidth 32, .word, false, false, false⟩
  | .tLdrhImm n rb _ => some ⟨s.reg (lowReg rb) + (n ++ 0#1).setWidth 32, .half, false, false, false⟩
  | .tLdrbImm n rb _ => some ⟨s.reg (lowReg rb) + n.setWidth 32, .byte, false, false, false⟩
  | .tStrImm n rb _ => some ⟨s.reg (lowReg rb) + (n ++ 0#2).setWidth 32, .word, true, false, false⟩
  | .tStrhImm n rb _ => some ⟨s.reg (lowReg rb) + (n ++ 0#1).setWidth 32, .half, true, false, false⟩
  | .tStrbImm n rb _ => some ⟨s.reg (lowReg rb) + n.setWidth 32, .byte, true, false, false⟩
  | .tLdrSp _ n => some ⟨s.reg 13#4 + (n ++ 0#2).setWidth 32, .word, false, false, false⟩
  | .tStrSp _ n => some ⟨s.reg 13#4 + (n ++ 0#2).setWidth 32, .word, true, false, false⟩
  | _ => none

/-- The instruction completes as a block load of the registers `rl` of the bank of mode `m` from `start`, with write-back
`wb`; the PC and the CPSR are said apart. -/
def BlockLoadDone (m : BitVec 5) (rl : List Reg) (start : Word) (wb : Option (Reg × Word)) (s t : State) : Prop :=
  BlockLoaded m rl start s t ∧ (∀ x ∈ wb, t.bankReg s.mode x.1 = x.2) ∧
    (∀ k : Fin 30, (∀ r ∈ rl, r ≠ 15#4 → bankIndex m r ≠ k) → (∀ x ∈ wb, bankIndex s.mode x.1 ≠ k) →
      t.regs.get k = s.regs.get k) ∧
    (∀ x, t.byteAt x = s.byteAt x) ∧ t.cop = s.cop ∧ SameButAccesses s t

/-- The instruction completes as a block store of `vals` from `start`, with write-back `wb`. -/
def BlockStoreDone (start : Word) (vals : List Word) (wb : Option (Reg × Word)) (s t : State) : Prop :=
  Stored (blockBytes s.pins.bigend start vals) s t ∧ (∀ x ∈ wb, t.bankReg s.mode x.1 = x.2) ∧
    OnlyRegs s.mode (wb.toList.map Prod.fst) s t ∧ t.cpsr = s.cpsr ∧ FallsThrough s t ∧ t.cop = s.cop ∧
    SameButAccesses s t

/-- A block load of `rl` of the bank of mode `m` with base register `rn` was aborted (60_exceptions.md R670, R683, R684): the
Data Abort is entered, and of the registers only R14_abt and the listed ones but the base may differ. -/
def BlockLoadAborted (m : BitVec 5) (rl : List Reg) (rn : Reg) (s t : State) : Prop :=
  t.mode = abtMode ∧ t.bankReg abtMode 14#4 = s.pc + 8#32 ∧ t.spsrOf abtMode = some s.cpsr ∧ bitT t.cpsr = false ∧
    maskI t.cpsr = true ∧ maskF t.cpsr = maskF s.cpsr ∧
    t.pc = (if s.pins.hivecs then 0xFFFF0000#32 else 0#32) + 16#32 ∧
    (bankIndex s.mode rn ≠ bankIndex abtMode 14#4 → t.bankReg s.mode rn = s.bankReg s.mode rn) ∧
    (∀ k : Fin 30, k ≠ bankIndex abtMode 14#4 → (∀ r ∈ rl, r ≠ 15#4 → bankIndex m r ≠ k) →
      t.regs.get k = s.regs.get k) ∧
    (∀ x, t.byteAt x = s.byteAt x)

/-- Some word of the block is answered with an abort, no access is withheld by debug state or reset, and no other master comes
between. -/
def BlockAborts (s : State) (start : Word) (n : Nat) (write : Bool) : Prop :=
  Alone s ∧ s.debugSpeed = false ∧ s.sys.budget = none ∧
    ∃ k, k < n ∧ s.dataAborts (wordAddr start k) .word write false = true

/-- Memory after an aborted block store of `vals` (44_arm_load_store_multiple_swap.md R393, 60_exceptions.md R685): every byte outside
the block is as before, and the words ahead of the first that a rule of the memory system speaks of are written. -/
def PartlyStored (start : Word) (vals : List Word) (s t : State) : Prop :=
  (∀ x, (∀ y ∈ blockBytes s.pins.bigend start vals, y.1 ≠ x) → t.byteAt x = s.byteAt x) ∧
    (Memory.wf s.mem = true → ∀ k (h : k < vals.length),
      (∀ j, j ≤ k → s.dataRule (wordAddr start j) .word true false = none) →
      ∀ y ∈ storeBytes s.pins.bigend .word (wordAddr start k) vals[k], t.byteAt y.1 = y.2)

/-! ## Coprocessors -/

/-- The coprocessors accept the offered instruction with `go` GO answers and these words (46_arm_coprocessor.md R471). -/
def Accepts (s : State) (go : Nat) (data : List Word) (rest : List CpReply) : Prop :=
  s.cop.replies = .accept go data :: rest

/-- What a coprocessor instruction leaves alone besides registers, the coprocessors and what the data interface shows. -/
def SameButCop (s t : State) : Prop :=
  t.spsr = s.spsr ∧ t.mem = s.mem ∧ t.imem = s.imem ∧ t.pins = s.pins ∧ t.sys = s.sys ∧ t.bus = s.bus ∧ t.ice = s.ice ∧
    t.tap = s.tap ∧ t.dbg = s.dbg ∧ t.inReset = s.inReset ∧ t.schedule = s.schedule

/-- The data interface shows a coprocessor transfer of the word `v`, in this step and in this direction (46_arm_coprocessor.md R481,
20_memory.md R103); with `onDa`, and only then, the word is on DA and IA too (R488). -/
def CopShown (write : Bool) (v : Word) (onDa : Prop) (t : State) : Prop :=
  ∃ e b, t.port = ⟨some e, true, true, b⟩ ∧ e.write = write ∧ e.size = .word ∧ e.value = v ∧ e.lock = false ∧ (onDa → e.addr = v) ∧
    (b = true ↔ onDa)

/-! ## The debugger's serial path -/

/-- The TAP controller has come to Run-Test/Idle, with the moves `rest` to come. -/
def State.idled (s : State) (rest : List Move) : State := { s with schedule := rest, tap := { s.tap with st := .runTestIdle } }

/-- RESTART is at work: the scan cells are in system mode and the pending instruction is taken. -/
def State.restarting (s : State) : State :=
  { s with tap := { s.tap with cells := .normal }, dbg := { s.dbg with restart := false, pending := none } }

/-! ## Classes of instructions -/

/-- The instructions that may write memory. -/
def mayStore : Instr → Bool
  | .swp _ _ _ _ _ | .swpb _ _ _ _ _ | .strh _ _ | .strtImm _ _ _ _ _ | .strbtImm _ _ _ _ _ | .strImm _ _ _
  | .strbImm _ _ _ | .strtReg _ _ _ _ _ | .strbtReg _ _ _ _ _ | .strReg _ _ _ | .strbReg _ _ _
  | .stm1 _ _ _ _ _ _ | .stm2 _ _ _ _ _ _ | .stc _ _ | .tStrReg _ _ _ | .tStrhReg _ _ _ | .tStrbReg _ _ _
  | .tStrImm _ _ _ | .tStrbImm _ _ _ | .tStrhImm _ _ _ | .tStrSp _ _ | .tPush _ _ | .tStmia _ _ => true
  | _ => false

/-- The state is one that an exception entry leaves: ARM state, IRQ masked, a mode that has an SPSR, the PC at the vector of an
Undefined Instruction, a Software Interrupt or a Data Abort. -/
def AtVector (s t : State) : Prop :=
  bitT t.cpsr = false ∧ maskI t.cpsr = true ∧
    ((t.mode = undMode ∧ t.pc = s.vectorBase + 4#32) ∨ (t.mode = svcMode ∧ t.pc = s.vectorBase + 8#32) ∨
      (t.mode = abtMode ∧ t.pc = s.vectorBase + 16#32))

/-! ## Families of constructors -/

/-- The immediate form of each operation; a comparison has no Rd and MOV and MVN no Rn: those fields are SBZ. -/
def dpImm (op : DpOp) (c : Cond) (setFlags : Bool) (rn rd : Reg) (o : RotImm) : Instr :=
  match op with
  | .and => .andImm c setFlags rn rd o
  | .eor => .eorImm c setFlags rn rd o
  | .sub => .subImm c setFlags rn rd o
  | .rsb => .rsbImm c setFlags rn rd o
  | .add => .addImm c setFlags rn rd o
  | .adc => .adcImm c setFlags rn rd o
  | .sbc => .sbcImm c setFlags rn rd o
  | .rsc => .rscImm c setFlags rn rd o
  | .tst => .tstImm c rn 0#4 o
  | .teq => .teqImm c rn 0#4 o
  | .cmp => .cmpImm c rn 0#4 o
  | .cmn => .cmnImm c rn 0#4 o
  | .orr => .orrImm c setFlags rn rd o
  | .mov => .movImm c setFlags 0#4 rd o
  | .bic => .bicImm c setFlags rn rd o
  | .mvn => .mvnImm c setFlags 0#4 rd o

/-- The immediate-shift form of each operation. -/
def dpShiftImm (op : DpOp) (c : Cond) (setFlags : Bool) (rn rd : Reg) (o : ShiftImm) : Instr :=
  match op with
  | .and => .andShiftImm c setFlags rn rd o
  | .eor => .eorShiftImm c setFlags rn rd o
  | .sub => .subShiftImm c setFlags rn rd o
  | .rsb => .rsbShiftImm c setFlags rn rd o
  | .add => .addShiftImm c setFlags rn rd o
  | .adc => .adcShiftImm c setFlags rn rd o
  | .sbc => .sbcShiftImm c setFlags rn rd o
  | .rsc => .rscShiftImm c setFlags rn rd o
  | .tst => .tstShiftImm c rn 0#4 o
  | .teq => .teqShiftImm c rn 0#4 o
  | .cmp => .cmpShiftImm c rn 0#4 o
  | .cmn => .cmnShiftImm c rn 0#4 o
  | .orr => .orrShiftImm c setFlags rn rd o
  | .mov => .movShiftImm c setFlags 0#4 rd o
  | .bic => .bicShiftImm c setFlags rn rd o
  | .mvn => .mvnShiftImm c setFlags 0#4 rd o

/-- The register-shift form of each operation. -/
def dpShiftReg (op : DpOp) (c : Cond) (setFlags : Bool) (rn rd : Reg) (o : ShiftReg) : Instr :=
  match op with
  | .and => .andShiftReg c setFlags rn rd o
  | .eor => .eorShiftReg c setFlags rn rd o
  | .sub => .subShiftReg c setFlags rn rd o
  | .rsb => .rsbShiftReg c setFlags rn rd o
  | .add => .addShiftReg c setFlags rn rd o
  | .adc => .adcShiftReg c setFlags rn rd o
  | .sbc => .sbcShiftReg c setFlags rn rd o
  | .rsc => .rscShiftReg c setFlags rn rd o
  | .tst => .tstShiftReg c rn 0#4 o
  | .teq => .teqShiftReg c rn 0#4 o
  | .cmp => .cmpShiftReg c rn 0#4 o
  | .cmn => .cmnShiftReg c rn 0#4 o
  | .orr => .orrShiftReg c setFlags rn rd o
  | .mov => .movShiftReg c setFlags 0#4 rd o
  | .bic => .bicShiftReg c setFlags rn rd o
  | .mvn => .mvnShiftReg c setFlags 0#4 rd o

/-- The instruction completes as a 32-bit multiply with result `n` modulo 2^32; with S = 1 only N and Z are said (41_arm_multiply.md
R302). -/
def MulDone (i : Instr) (s : State) (setFlags : Bool) (rd : Reg) (n : Nat) : Prop :=
  ∃ t, exec i s = .next t ∧ (t.bankReg s.mode rd).toNat = n % 2 ^ 32 ∧ OnlyRegs s.mode [rd] s t ∧
    (if setFlags then
      SameControl s.cpsr t.cpsr ∧ flagN t.cpsr = (t.bankReg s.mode rd).getLsbD 31 ∧
        flagZ t.cpsr = decide (n % 2 ^ 32 = 0) ∧ flagV t.cpsr = flagV s.cpsr
      else t.cpsr = s.cpsr) ∧
    FallsThrough s t ∧ SameOutside s t

/-- The instruction completes as a long multiply with result `p`; with S = 1 only N and Z are said (R302). -/
def MulLongDone (i : Instr) (s : State) (setFlags : Bool) (rdHi rdLo : Reg) (p : BitVec 64) : Prop :=
  ∃ t, exec i s = .next t ∧ t.bankReg s.mode rdHi ++ t.bankReg s.mode rdLo = p ∧ OnlyRegs s.mode [rdHi, rdLo] s t ∧
    (if setFlags then
      SameControl s.cpsr t.cpsr ∧ flagN t.cpsr = p.getLsbD 63 ∧ flagZ t.cpsr = decide (p = 0#64)
      else t.cpsr = s.cpsr) ∧
    FallsThrough s t ∧ SameOutside s t

/-- `q` is `p` with the bits chosen by `sel` taken from `v`. -/
def BitsFrom (p v q : Word) (sel : Nat → Bool) : Prop :=
  ∀ k, k < 32 → q.getLsbD k = if sel k then v.getLsbD k else p.getLsbD k

/-- N, Z, C and V, when the mask selects the flags byte (42_arm_status_register.md R323). -/
def flagBits (mask : BitVec 4) (k : Nat) : Bool := mask.getLsbD 3 && decide (28 ≤ k)

/-- I, F and the mode, when the mask selects the control byte. -/
def controlBits (mask : BitVec 4) (k : Nat) : Bool := mask.getLsbD 0 && (k == 7 || k == 6 || decide (k < 5))

/-- T, when the mask selects the control byte. -/
def stateBit (mask : BitVec 4) (k : Nat) : Bool := mask.getLsbD 0 && k == 5

/-- The instruction completes, having written the CPSR and nothing else. -/
def CpsrDone (i : Instr) (s : State) (q : Word → Prop) : Prop :=
  ∃ t, exec i s = .next t ∧ q t.cpsr ∧ t.regs = s.regs ∧ FallsThrough s t ∧ SameOutside s t

/-- The instruction completes by continuing at `a`, having written at most the registers `rs`, in the state given by `p`. -/
def JumpDone (i : Instr) (s : State) (a p : Word) (rs : List (Reg × Word)) : Prop :=
  ∃ t, exec i s = .next t ∧ t.pc = a ∧ t.cpsr = p ∧ (∀ x ∈ rs, t.bankReg s.mode x.1 = x.2) ∧
    OnlyRegs s.mode (rs.map Prod.fst) s t ∧ SameOutside s t

end Sys2Proof.Machine
end

