-- ==== Sys2Proof/Certificates/Slice0/Obligations.lean ====
section
/-!
DEFINITION. The statements for the provers. Each says for every state what an instruction or the machine does, in the terms of
Sys2Proof/Safety.lean; OBLIGATIONS.json names the rules of spec/ each rests on.
-/

open Sys2Proof Sys2Proof.Machine

/-! ## Encoding -/

/-- Every encodable ARM instruction encodes to a word that decodes to it (30_encoding.md R175 to R197). -/
def Obligations.ArmDecodeEncode : Prop :=
  ∀ i c, Instr.cond i = some c → Instr.encodable i = true → ∃ w, encode i = .arm w ∧ decodeArm w = i

/-- Every encodable Thumb instruction encodes to a halfword that decodes to it (R200 to R222). -/
def Obligations.ThumbDecodeEncode : Prop :=
  ∀ i, Instr.cond i = none → Instr.encodable i = true → ∃ h, encode i = .thumb h ∧ decodeThumb h = i

/-- Every ARM word and every Thumb halfword decodes to an encodable instruction of its own set whose encoding is that word, an ARM
one with the condition of bits 31:28: no bit is dropped and no encoding belongs to two rows (R172, R196, R221). -/
def Obligations.EncodeDecode : Prop :=
  (∀ w : Word, Instr.cond (decodeArm w) = some (Cond.ofBits (w.extractLsb' 28 4)) ∧
    Instr.encodable (decodeArm w) = true ∧ encode (decodeArm w) = .arm w) ∧
  ∀ h : Half, Instr.cond (decodeThumb h) = none ∧ Instr.encodable (decodeThumb h) = true ∧
    encode (decodeThumb h) = .thumb h

/-- Words of the spec's own examples decode to the instructions it says they are. -/
def Obligations.DecodeExamples : Prop :=
  decodeArm 0xE20100FF#32 = .andImm .al false 1#4 0#4 ⟨0#4, 0xFF#8⟩ ∧
    decodeArm 0xE1B00021#32 = .movShiftImm .al true 0#4 0#4 ⟨0#5, .lsr, 1#4⟩ ∧
    decodeArm 0xE0000291#32 = .mul .al false 0#4 0#4 2#4 1#4 ∧
    decodeArm 0xE4B10004#32 = .ldrtImm .al true 1#4 0#4 4#12 ∧
    decodeArm 0xE1D100B2#32 = .ldrh .al ⟨true, true, true, false, 1#4, 0#4, 0#4, 2#4⟩ ∧
    decodeArm 0xE8FD800F#32 = .ldm3 .al false true true 13#4 0xF#15 ∧
    decodeArm 0xE12FFF10#32 = .bx .al 0xFFF#12 0#4 ∧
    decodeArm 0xE328F20F#32 = .msrImm .al false 8#4 15#4 ⟨2#4, 0xF#8⟩ ∧
    decodeArm 0xEAFFFFFE#32 = .b .al 0xFFFFFE#24 ∧
    decodeArm 0xEF123456#32 = .swi .al 0x123456#24 ∧
    decodeThumb 0x1888#16 = .tAddReg 2#3 1#3 0#3 ∧
    decodeThumb 0x46C0#16 = .tMovHi true true 0#3 0#3 ∧
    decodeThumb 0xDE00#16 = .tUndDE 0#8

/-! ## The machine as a whole -/

/-- When the instruction at the PC decodes to `i`, the step runs `i`: from the bytes of memory where nothing is prefetched, from the
head of the prefetch queue where something is. Around it stand only the fetches that fill the queue, the sampling of the interrupt
inputs, and the end of the step (20_memory.md R110 to R112, 10_state.md R77). -/
def Obligations.StepRunsDecoded : Prop :=
  ∀ (s : State) (i : Instr), Ready s → pcOk s = true → userBankHazard i s.filled.sampled = false →
    ((s.pipe.queue = [] ∧ s.fetchRule s.pc = none ∧ ∃ rest, decodeBytes (bitT s.cpsr) s.pins.bigend
        ((List.range s.width.toNat).map fun k => Memory.read (s.fetchMem s.pc) (byteAddr s.pc k)) = .ok (i, rest)) ∨
      (∃ k q, s.pipe.queue = k :: q ∧ decodeCode (s.codeOf s.pc k.id) = i)) →
    step s = finish (exec i s.filled.sampled.begin) ∧
      let u := s.filled.sampled.begin
      (u.regs = s.regs ∧ u.pc = s.pc ∧ u.cpsr = s.cpsr ∧ u.spsr = s.spsr ∧ u.mem = s.mem ∧ u.imem = s.imem ∧ u.sys = s.sys ∧
        u.cop = s.cop ∧ u.bus = s.bus ∧ u.tap = s.tap ∧ u.dbg = s.dbg)

/-- Reset leaves Supervisor mode, ARM state, both interrupts masked, the PC at the vector base, and the debug logic as nTRST leaves
it (10_state.md R91, R94, R96, R97). The MODEL's own choices in it: HIVECS is LOW, so the base is 0 (log 4), and memory lists nothing
(log 5, log 36). -/
def Obligations.ResetState : Prop :=
  State.reset.mode = 0b10011#5 ∧ bitT State.reset.cpsr = false ∧ maskI State.reset.cpsr = true ∧
    maskF State.reset.cpsr = true ∧ State.reset.cpsr.extractLsb' 8 20 = 0#20 ∧ State.reset.pc = 0#32 ∧
    State.reset.ice.dbgCtl = 0#4 ∧ State.reset.ice.vecCatch = 0#8 ∧ State.reset.ice.w0.ctlValue = 0#9 ∧
    State.reset.ice.w1.ctlValue = 0#9 ∧ State.reset.ice.w0.chainOut = false ∧ State.reset.ice.w1.chainOut = false ∧
    State.reset.ice.wBit = false ∧ State.reset.ice.rBit = false ∧ State.reset.tap.st = .testLogicReset ∧
    TapInstr.ofCode State.reset.tap.ir = .idcode ∧ State.reset.tap.screg = 3#5 ∧ State.reset.dbg.inDebug = false ∧
    State.reset.pipe.queue = [] ∧ State.reset.mem = []

/-- The invariant holds after reset. -/
def Obligations.InvAtReset : Prop := Inv State.reset

/-- Every step of the machine, of the core or of any agent around it, keeps the invariant. -/
def Obligations.InvKept : Prop := ∀ s t : State, Inv s → step s = .next t → Inv t

/-- Code in User mode, outside debug state, never gains privilege, never changes the interrupt masks and never touches a
register of another mode, except by entering the handler of an exception (42_arm_status_register.md R325, 60_exceptions.md
R675, R720). -/
def Obligations.UserModeKept : Prop :=
  ∀ (i : Instr) (s t : State), s.mode = usrMode → s.dbg.inDebug = false → exec i s = .next t →
    (t.mode = usrMode ∧ maskI t.cpsr = maskI s.cpsr ∧ maskF t.cpsr = maskF s.cpsr ∧ t.spsr = s.spsr ∧
      ∀ k : Fin 30, 15 ≤ k.val → t.regs.get k = s.regs.get k) ∨ AtVector s t

/-- Only the store instructions write memory: while no other master comes between its accesses, every other instruction leaves every
byte as it was. -/
def Obligations.OnlyStoresWrite : Prop :=
  ∀ (i : Instr) (s t : State), mayStore i = false → Alone s → exec i s = .next t → t.mem = s.mem ∧ t.imem = s.imem

/-- An ARM instruction whose condition fails does nothing but advance the PC (00_scope.md R21, 30_encoding.md R172). -/
def Obligations.FailedCondition : Prop :=
  ∀ (i : Instr) (c : Cond) (s : State), Instr.cond i = some c → c ≠ .nv → conditionPassed c s.cpsr = false →
    ∃ t, exec i s = .next t ∧ t.regs = s.regs ∧ t.cpsr = s.cpsr ∧ FallsThrough s t ∧ SameOutside s t ∧
      t.instrExec = false

/-- An instruction that is UNPREDICTABLE in itself is refused by the name of its first defect: condition 0b1111 always, the
others when the condition passes (93_implementation_defined.md U1, U2). -/
def Obligations.UnpredictableRefused : Prop :=
  ∀ (i : Instr) (d : Defect) (s : State), Instr.defect i = some d → (d = .condNever ∨ passes i s = true) →
    exec i s = .refused (.unpredictable d)

/-! ## ARM data processing -/

/-- The sixteen operations with an immediate operand, into a register other than R15 or as a comparison. -/
def Obligations.DpImmediate : Prop :=
  ∀ (op : DpOp) (c : Cond) (setFlags : Bool) (rn rd : Reg) (o : RotImm) (s : State), rd ≠ 15#4 →
    Runs (dpImm op c setFlags rn rd o) s →
    DataDone (dpImm op c setFlags rn rd o) s op setFlags rd (s.reg rn) (op2Imm s o).val (op2Imm s o).carry

/-- The sixteen operations with a register operand shifted by an immediate. -/
def Obligations.DpShiftedByImmediate : Prop :=
  ∀ (op : DpOp) (c : Cond) (setFlags : Bool) (rn rd : Reg) (o : ShiftImm) (s : State), rd ≠ 15#4 →
    Runs (dpShiftImm op c setFlags rn rd o) s →
    DataDone (dpShiftImm op c setFlags rn rd o) s op setFlags rd (s.reg rn) (op2ShiftImm s o).val (op2ShiftImm s o).carry

/-- The sixteen operations with a register operand shifted by a register; here R15 is UNPREDICTABLE everywhere. -/
def Obligations.DpShiftedByRegister : Prop :=
  ∀ (op : DpOp) (c : Cond) (setFlags : Bool) (rn rd : Reg) (o : ShiftReg) (s : State), rd ≠ 15#4 →
    Runs (dpShiftReg op c setFlags rn rd o) s →
    DataDone (dpShiftReg op c setFlags rn rd o) s op setFlags rd (s.reg rn) (op2ShiftReg s o).val (op2ShiftReg s o).carry

/-- R15 as the destination (R252): without S a jump to an aligned result and a refusal of another; with S the exception return,
refused where the mode has no SPSR or the SPSR holds no legal mode. -/
def Obligations.DpToPc : Prop :=
  ∀ (op : DpOp) (c : Cond) (setFlags : Bool) (rn : Reg) (i : Instr) (b : Word) (s : State), op.compares = false →
    ((∃ o, i = dpImm op c setFlags rn 15#4 o ∧ b = (op2Imm s o).val) ∨
      (∃ o, i = dpShiftImm op c setFlags rn 15#4 o ∧ b = (op2ShiftImm s o).val)) →
    Runs i s →
    ∃ r, DpResult op (flagC s.cpsr) (s.reg rn) b r ∧
      (setFlags = false → r.extractLsb' 0 2 = 0#2 → JumpDone i s r s.cpsr []) ∧
      (setFlags = false → r.extractLsb' 0 2 ≠ 0#2 → exec i s = .refused (.unpredictable .pcUnaligned)) ∧
      (∀ p, setFlags = true → s.spsrOf s.mode = some p → legalMode (modeOf p) = true →
        JumpDone i s (if bitT p then r &&& 0xFFFFFFFE#32 else r &&& 0xFFFFFFFC#32) p []) ∧
      (∀ p, setFlags = true → s.spsrOf s.mode = some p → legalMode (modeOf p) = false →
        exec i s = .refused (.unpredictable .illegalMode)) ∧
      (setFlags = true → s.spsrOf s.mode = none → exec i s = .refused (.unpredictable .noSpsr))

/-- The immediate operand and the immediate shifts in bits and integers (R255 to R259). -/
def Obligations.ImmediateShifts : Prop :=
  (∀ (s : State) (o : RotImm) (k : Nat), k < 32 →
      (op2Imm s o).val.getLsbD k = o.imm8.getLsbD ((k + 2 * o.rot.toNat) % 32)) ∧
    (∀ (s : State) (o : RotImm),
      (op2Imm s o).carry = if o.rot.toNat = 0 then flagC s.cpsr else (op2Imm s o).val.getLsbD 31) ∧
    (∀ (s : State) (o : ShiftImm), op2ShiftImm s o = shiftByImm o.ty (s.reg o.rm) o.amount.toNat (flagC s.cpsr)) ∧
    ∀ (m : Word) (n : Nat) (c : Bool), n < 32 →
      (shiftByImm .lsl m n c).val.toNat = m.toNat * 2 ^ n % 2 ^ 32 ∧
      (shiftByImm .lsl m n c).carry = (if n = 0 then c else m.getLsbD (32 - n)) ∧
      (shiftByImm .lsr m n c).val.toNat = (if n = 0 then 0 else m.toNat / 2 ^ n) ∧
      (shiftByImm .lsr m n c).carry = (if n = 0 then m.getLsbD 31 else m.getLsbD (n - 1)) ∧
      (shiftByImm .asr m n c).val.toInt = (if n = 0 then m.toInt / 2 ^ 32 else m.toInt / 2 ^ n) ∧
      (shiftByImm .asr m n c).carry = (if n = 0 then m.getLsbD 31 else m.getLsbD (n - 1)) ∧
      (∀ k, k < 32 → (shiftByImm .ror m n c).val.getLsbD k =
        if n = 0 then (if k = 31 then c else m.getLsbD (k + 1)) else m.getLsbD ((k + n) % 32)) ∧
      (shiftByImm .ror m n c).carry = (if n = 0 then m.getLsbD 0 else m.getLsbD (n - 1))

/-- Shifts by a register amount, amount 0 to 255 (R260). -/
def Obligations.RegisterShifts : Prop :=
  (∀ (s : State) (o : ShiftReg), op2ShiftReg s o = shiftByReg o.ty (s.reg o.rm) ((s.reg o.rs).toNat % 256) (flagC s.cpsr)) ∧
  ∀ (m : Word) (n : Nat) (c : Bool), n < 256 →
    (∀ ty, n = 0 → shiftByReg ty m n c = ⟨m, c⟩) ∧
    (0 < n →
      (shiftByReg .lsl m n c).val.toNat = m.toNat * 2 ^ n % 2 ^ 32 ∧
      (shiftByReg .lsl m n c).carry = (decide (n ≤ 32) && m.getLsbD (32 - n)) ∧
      (shiftByReg .lsr m n c).val.toNat = m.toNat / 2 ^ n ∧
      (shiftByReg .lsr m n c).carry = m.getLsbD (n - 1) ∧
      (shiftByReg .asr m n c).val.toInt = m.toInt / 2 ^ n ∧
      (shiftByReg .asr m n c).carry = m.getLsbD (min n 32 - 1) ∧
      (∀ k, k < 32 → (shiftByReg .ror m n c).val.getLsbD k = m.getLsbD ((k + n) % 32)) ∧
      (shiftByReg .ror m n c).carry = m.getLsbD ((n + 31) % 32))

/-- MUL and MLA, ARM and Thumb: the low 32 bits of the product or sum (41_arm_multiply.md R304, R305, 47_thumb_data.md R556). -/
def Obligations.Multiply : Prop :=
  ∀ s : State,
    (∀ c f rd rs rm, Runs (.mul c f rd 0#4 rs rm) s →
      MulDone (.mul c f rd 0#4 rs rm) s f rd ((s.reg rm).toNat * (s.reg rs).toNat)) ∧
    (∀ c f rd rn rs rm, Runs (.mla c f rd rn rs rm) s →
      MulDone (.mla c f rd rn rs rm) s f rd ((s.reg rm).toNat * (s.reg rs).toNat + (s.reg rn).toNat)) ∧
    (∀ rs rd, Runs (.tMul rs rd) s →
      MulDone (.tMul rs rd) s true (lowReg rd) ((s.reg (lowReg rd)).toNat * (s.reg (lowReg rs)).toNat))

/-- The long multiplies: the exact 64-bit product, unsigned or signed, plus the accumulator pair modulo 2^64 (R306 to R309). -/
def Obligations.LongMultiply : Prop :=
  ∀ (s : State) (c : Cond) (f : Bool) (hi lo rs rm : Reg),
    (Runs (.umull c f hi lo rs rm) s → ∀ p : BitVec 64, p.toNat = (s.reg rm).toNat * (s.reg rs).toNat →
      MulLongDone (.umull c f hi lo rs rm) s f hi lo p) ∧
    (Runs (.umlal c f hi lo rs rm) s → ∀ p : BitVec 64,
      p.toNat = ((s.reg rm).toNat * (s.reg rs).toNat + ((s.reg hi).toNat * 2 ^ 32 + (s.reg lo).toNat)) % 2 ^ 64 →
      MulLongDone (.umlal c f hi lo rs rm) s f hi lo p) ∧
    (Runs (.smull c f hi lo rs rm) s → ∀ p : BitVec 64, p.toInt = (s.reg rm).toInt * (s.reg rs).toInt →
      MulLongDone (.smull c f hi lo rs rm) s f hi lo p) ∧
    (Runs (.smlal c f hi lo rs rm) s → ∀ p : BitVec 64,
      p = BitVec.ofInt 64 ((s.reg rm).toInt * (s.reg rs).toInt + (s.reg hi ++ s.reg lo).toInt) →
      MulLongDone (.smlal c f hi lo rs rm) s f hi lo p)

/-! ## Status registers -/

/-- MRS reads the CPSR, or the SPSR of a mode that has one (R321). -/
def Obligations.ReadStatus : Prop :=
  ∀ (c : Cond) (r : Bool) (rd : Reg) (s : State), Runs (.mrs c r 15#4 rd 0#4 0#4) s →
    (r = true ∧ s.spsrOf s.mode = none → exec (.mrs c r 15#4 rd 0#4 0#4) s = .refused (.unpredictable .noSpsr)) ∧
    (∀ p, (if r then s.spsrOf s.mode else some s.cpsr) = some p →
      ∃ t, exec (.mrs c r 15#4 rd 0#4 0#4) s = .next t ∧ t.bankReg s.mode rd = p ∧ OnlyRegs s.mode [rd] s t ∧
        t.cpsr = s.cpsr ∧ FallsThrough s t ∧ SameOutside s t)

/-- MSR to the CPSR, register and immediate: which bits take the operand's, by mode (R323 to R326); in debug state User mode writes
the control bits too, T being ignored there as ever (R329). That an operand with a reserved bit set completes too and writes nothing
there is the MODEL's choice (log 6): D12 reads those bits as zero, R324 and R327 call the attempt UNPREDICTABLE. -/
def Obligations.WriteCpsr : Prop :=
  ∀ (c : Cond) (mask : BitVec 4) (i : Instr) (v : Word) (s : State),
    ((∃ rm, i = .msrReg c false mask 15#4 0#4 rm ∧ v = s.reg rm) ∨
      (∃ o, i = .msrImm c false mask 15#4 o ∧ v = RotImm.value o)) →
    Runs i s →
    (s.mode = usrMode → s.dbg.inDebug = false → CpsrDone i s fun q => BitsFrom s.cpsr v q (flagBits mask)) ∧
    (s.mode ≠ usrMode → mask.getLsbD 0 = true → v.getLsbD 5 = true → exec i s = .refused (.unpredictable .setThumb)) ∧
    (s.mode ≠ usrMode ∨ s.dbg.inDebug = true →
      (mask.getLsbD 0 = false → legalMode s.mode = true →
        CpsrDone i s fun q => BitsFrom s.cpsr v q (flagBits mask)) ∧
      (mask.getLsbD 0 = true → s.mode = usrMode ∨ v.getLsbD 5 = false →
        (legalMode (modeOf v) = true →
          CpsrDone i s fun q => BitsFrom s.cpsr v q fun k => flagBits mask k || controlBits mask k) ∧
        (legalMode (modeOf v) = false → exec i s = .refused (.unpredictable .illegalMode))))

/-- MSR to the SPSR of the current mode writes flags and control bits, T included; a mode without one refuses (R324, R326). That an
operand with a reserved bit set completes too and writes nothing there is the MODEL's choice (log 6): D12 reads those bits as zero, R324
and R327 call the attempt UNPREDICTABLE. -/
def Obligations.WriteSpsr : Prop :=
  ∀ (c : Cond) (mask : BitVec 4) (i : Instr) (v : Word) (s : State),
    ((∃ rm, i = .msrReg c true mask 15#4 0#4 rm ∧ v = s.reg rm) ∨
      (∃ o, i = .msrImm c true mask 15#4 o ∧ v = RotImm.value o)) →
    Runs i s →
    (s.spsrOf s.mode = none → exec i s = .refused (.unpredictable .noSpsr)) ∧
    (∀ p, s.spsrOf s.mode = some p →
      ∃ t q, exec i s = .next t ∧ t.spsrOf s.mode = some q ∧
        BitsFrom p v q (fun k => flagBits mask k || controlBits mask k || stateBit mask k) ∧
        (∀ k : Fin 5, spsrIndex s.mode ≠ some k → t.spsr.get k = s.spsr.get k) ∧ t.cpsr = s.cpsr ∧ t.regs = s.regs ∧
        FallsThrough s t ∧ SameWorld s t)

/-! ## ARM loads and stores -/

/-- What a read of each size gives, which value each load makes of it in bits, and which bytes a store of each size writes, in
either byte order (20_memory.md R122 to R125, R130, R131, 43_arm_load_store.md R346, R347, R360 to R362). -/
def Obligations.ByteOrder : Prop :=
  ∀ (s : State) (a v : Word),
    let b := fun i => s.byteAt (byteAddr a i)
    let h : Half := if s.pins.bigend then b 0 ++ b 1 else b 1 ++ b 0
    (∀ i, byteAddr a i = (a.toNat + i) % 2 ^ 32) ∧
    s.busRead .byte a = (b 0).setWidth 32 ∧
    (a.getLsbD 0 = false → s.busRead .half a = h.setWidth 32) ∧
    (a.extractLsb' 0 2 = 0#2 → s.busRead .word a =
      if s.pins.bigend then b 0 ++ b 1 ++ b 2 ++ b 3 else b 3 ++ b 2 ++ b 1 ++ b 0) ∧
    s.busRead .word a = s.busRead .word (a &&& 0xFFFFFFFC#32) ∧
    (∀ k, k < 32 → (LoadKind.value .word a (s.busRead .word a)).getLsbD k =
      (s.busRead .word a).getLsbD ((k + 8 * (a.toNat % 4)) % 32)) ∧
    (LoadKind.value .byte a (s.busRead .byte a)).toNat = (b 0).toNat ∧
    (LoadKind.value .sbyte a (s.busRead .byte a)).toInt = (b 0).toInt ∧
    (a.getLsbD 0 = false → (LoadKind.value .half a (s.busRead .half a)).toNat = h.toNat ∧
      (LoadKind.value .shalf a (s.busRead .half a)).toInt = h.toInt) ∧
    (∀ big, storeBytes big .byte a v = [(byteAddr a 0, v.extractLsb' 0 8)]) ∧
    (∀ big, a.getLsbD 0 = false → storeBytes big .half a v =
      if big then [(byteAddr a 0, v.extractLsb' 8 8), (byteAddr a 1, v.extractLsb' 0 8)]
      else [(byteAddr a 0, v.extractLsb' 0 8), (byteAddr a 1, v.extractLsb' 8 8)]) ∧
    (∀ big, a.extractLsb' 0 2 = 0#2 → storeBytes big .word a v =
      if big then [(byteAddr a 0, v.extractLsb' 24 8), (byteAddr a 1, v.extractLsb' 16 8),
        (byteAddr a 2, v.extractLsb' 8 8), (byteAddr a 3, v.extractLsb' 0 8)]
      else [(byteAddr a 0, v.extractLsb' 0 8), (byteAddr a 1, v.extractLsb' 8 8),
        (byteAddr a 2, v.extractLsb' 16 8), (byteAddr a 3, v.extractLsb' 24 8)]) ∧
    (∀ big, storeBytes big .word a v = storeBytes big .word (a &&& 0xFFFFFFFC#32) v)

/-- The ARM loads into a register other than R15, in every addressing form, with their addresses in unbounded integers
(43_arm_load_store.md R340 to R347, R350, R351, R360 to R362). -/
def Obligations.ArmLoads : Prop :=
  ∀ (s : State) (c : Cond), AddressForms s ∧
    (∀ (a : Mode2) imm, let target := offsetBy a.u (s.reg a.rn) (imm12Offset imm)
      LoadTo (.ldrImm c a imm) s .word (Mode2.address a (s.reg a.rn) target) false (Mode2.writeBack a target) a.rd ∧
      LoadTo (.ldrbImm c a imm) s .byte (Mode2.address a (s.reg a.rn) target) false (Mode2.writeBack a target) a.rd) ∧
    (∀ (a : Mode2) o, let target := offsetBy a.u (s.reg a.rn) (shiftedOffset s o)
      LoadTo (.ldrReg c a o) s .word (Mode2.address a (s.reg a.rn) target) false (Mode2.writeBack a target) a.rd ∧
      LoadTo (.ldrbReg c a o) s .byte (Mode2.address a (s.reg a.rn) target) false (Mode2.writeBack a target) a.rd) ∧
    (∀ u rn rd imm, let target := offsetBy u (s.reg rn) (imm12Offset imm)
      LoadTo (.ldrtImm c u rn rd imm) s .word (s.reg rn) true (some (rn, target)) rd ∧
      LoadTo (.ldrbtImm c u rn rd imm) s .byte (s.reg rn) true (some (rn, target)) rd) ∧
    (∀ u rn rd o, let target := offsetBy u (s.reg rn) (shiftedOffset s o)
      LoadTo (.ldrtReg c u rn rd o) s .word (s.reg rn) true (some (rn, target)) rd ∧
      LoadTo (.ldrbtReg c u rn rd o) s .byte (s.reg rn) true (some (rn, target)) rd) ∧
    (∀ m : Mode3,
      LoadTo (.ldrh c m) s .half (Mode3.address s m) false (Mode3.writeBack s m) m.rd ∧
      LoadTo (.ldrsh c m) s .shalf (Mode3.address s m) false (Mode3.writeBack s m) m.rd ∧
      LoadTo (.ldrsb c m) s .sbyte (Mode3.address s m) false (Mode3.writeBack s m) m.rd)

/-- The ARM stores in every addressing form, with their addresses in unbounded integers (R340 to R344, R348, R349, R352, R353,
R363); R15 stores its address + 12. -/
def Obligations.ArmStores : Prop :=
  ∀ (s : State) (c : Cond), AddressForms s ∧
    (∀ (a : Mode2) imm, let target := offsetBy a.u (s.reg a.rn) (imm12Offset imm)
      StoreTo (.strImm c a imm) s .word (Mode2.address a (s.reg a.rn) target) (s.storedReg a.rd) false
        (Mode2.writeBack a target) ∧
      StoreTo (.strbImm c a imm) s .byte (Mode2.address a (s.reg a.rn) target) (s.storedReg a.rd) false
        (Mode2.writeBack a target)) ∧
    (∀ (a : Mode2) o, let target := offsetBy a.u (s.reg a.rn) (shiftedOffset s o)
      StoreTo (.strReg c a o) s .word (Mode2.address a (s.reg a.rn) target) (s.storedReg a.rd) false
        (Mode2.writeBack a target) ∧
      StoreTo (.strbReg c a o) s .byte (Mode2.address a (s.reg a.rn) target) (s.storedReg a.rd) false
        (Mode2.writeBack a target)) ∧
    (∀ u rn rd imm, let target := offsetBy u (s.reg rn) (imm12Offset imm)
      StoreTo (.strtImm c u rn rd imm) s .word (s.reg rn) (s.storedReg rd) true (some (rn, target)) ∧
      StoreTo (.strbtImm c u rn rd imm) s .byte (s.reg rn) (s.storedReg rd) true (some (rn, target))) ∧
    (∀ u rn rd o, let target := offsetBy u (s.reg rn) (shiftedOffset s o)
      StoreTo (.strtReg c u rn rd o) s .word (s.reg rn) (s.storedReg rd) true (some (rn, target)) ∧
      StoreTo (.strbtReg c u rn rd o) s .byte (s.reg rn) (s.storedReg rd) true (some (rn, target))) ∧
    (∀ m : Mode3,
      StoreTo (.strh c m) s .half (Mode3.address s m) (s.storedReg m.rd) false (Mode3.writeBack s m)) ∧
    (s.dbg.inDebug = false → s.storedReg 15#4 = s.pc + 12#32)

/-- LDR of R15 from an aligned address jumps there, with no change of state; from another address it is refused (R346). -/
def Obligations.LoadToPc : Prop :=
  ∀ (s : State) (c : Cond) (a : Mode2) (i : Instr) (off : Word), a.rd = 15#4 →
    ((∃ imm, i = .ldrImm c a imm ∧ off = imm12Offset imm) ∨ (∃ o, i = .ldrReg c a o ∧ off = shiftedOffset s o)) →
    let target := offsetBy a.u (s.reg a.rn) off
    let addr := Mode2.address a (s.reg a.rn) target
    Runs i s →
    (addr.extractLsb' 0 2 ≠ 0#2 → exec i s = .refused (.unpredictable .ldrPcUnaligned)) ∧
    (addr.extractLsb' 0 2 = 0#2 → Readable s addr .word false →
      ∃ t, exec i s = .next t ∧ t.pc = s.busRead .word addr &&& 0xFFFFFFFC#32 ∧ t.cpsr = s.cpsr ∧
        (∀ x ∈ Mode2.writeBack a target, t.bankReg s.mode x.1 = x.2) ∧
        OnlyRegs s.mode ((Mode2.writeBack a target).toList.map Prod.fst) s t ∧ (∀ x, t.byteAt x = s.byteAt x) ∧
        SameOutside (s.afterAccess addr .word false (s.busRead .word addr) false .single
          (busWordAt s.pins.bigend s.mem addr)) t)

/-- SWP and SWPB exchange a register and memory by a locked read and a locked write (44_arm_load_store_multiple_swap.md R420,
R421); when either is aborted they enter the Data Abort with no register of their own written (60_exceptions.md R683, R684), memory
as before when it is the read, and when it is the write unless the memory system lands the aborted store (log 19). No other master comes between where the memory controller honours DLOCK; where it does not, one may (20_memory.md R142). -/
def Obligations.Swap : Prop :=
  ∀ (s : State) (c : Cond) (rn rd rm : Reg) (i : Instr) (k : LoadKind),
    ((i = .swp c rn rd 0#4 rm ∧ k = .word) ∨ (i = .swpb c rn rd 0#4 rm ∧ k = .byte)) → Runs i s →
    (Readable s (s.reg rn) k.size false → Writable s (s.reg rn) k.size false → s.sys.locks = true ∨ Alone s →
      ∃ t, exec i s = .next t ∧ t.bankReg s.mode rd = k.value (s.reg rn) (s.busRead k.size (s.reg rn)) ∧
        OnlyRegs s.mode [rd] s t ∧ Stored (storeBytes s.pins.bigend k.size (s.reg rn) (s.reg rm)) s t ∧
        t.bus = s.event (s.reg rn) k.size true (ddCopies k.size (s.reg rm)) false .locked ::
          s.event (s.reg rn) k.size false (s.busRead k.size (s.reg rn)) false .locked :: s.bus ∧
        t.cpsr = s.cpsr ∧ FallsThrough s t ∧ t.cop = s.cop ∧ SameButAccesses s t) ∧
    (∀ ws gaps, Readable s (s.reg rn) k.size false → Writable s (s.reg rn) k.size false → s.sys.locks = false →
      s.sys.others = ws :: gaps →
      ∃ t, exec i s = .next t ∧ t.bankReg s.mode rd = k.value (s.reg rn) (s.busRead k.size (s.reg rn)) ∧
        OnlyRegs s.mode [rd] s t ∧ t.cpsr = s.cpsr ∧ FallsThrough s t ∧ t.sys.others = gaps ∧
        Stored (storeBytes s.pins.bigend k.size (s.reg rn) (s.reg rm))
          { s with mem := Memory.writeAll s.mem (ws.map fun x => (x.1.toNat, x.2)) } t) ∧
    (Aborts s (s.reg rn) k.size false false ∨ Aborts s (s.reg rn) k.size true false →
      ∃ t, exec i s = .next t ∧ Enters .dataAbort (s.pc + 8#32) s t ∧
        (Aborts s (s.reg rn) k.size false false → t.mem = s.mem) ∧
        ((∀ r, s.dataRule (s.reg rn) k.size true false = some r → r.answer.lands = false) → s.sys.locks = true ∨ Alone s →
          t.mem = s.mem))

/-- A single transfer, ARM or Thumb, whose access the memory system aborts enters the Data Abort with no register of the
instruction written: base and destination keep their values (R344, 48_thumb_memory_branch.md R592, 60_exceptions.md R676, R683, R684); a
coprocessor instruction that follows has seen PASS and is cancelled (46_arm_coprocessor.md R478). A Thumb word access at an unaligned
address is refused (R591, U11); that it is made, and so takes the abort, in a run that does not refuse it, is the MODEL's choice (log 11,
log 45). -/
def Obligations.SingleAborts : Prop :=
  ∀ (s : State) (i : Instr) (x : Single) (r : MemRule), singleAccess s i = some x → Runs i s →
    s.debugSpeed = false → s.sys.budget = none → s.dataRule x.addr x.size x.write x.user = some r →
    r.answer.aborts = true → EvenFor x.size x.addr → (x.toPc = true → x.addr.extractLsb' 0 2 = 0#2) →
    (Instr.cond i = none → x.size = .word → s.pins.strict = true → x.addr.extractLsb' 0 2 = 0#2) →
    ∃ t, exec i s = .next t ∧ Enters .dataAbort (s.pc + 8#32) s t ∧
      (x.write = false ∨ r.answer.lands = false → t.mem = s.mem) ∧
      (∀ j, s.following = some j → t.pass = true ∧ t.lateCancel = true ∧ t.cop.log = s.cop.log ++ [.cancelled j])

/-! ## Block transfers -/

/-- The addresses of a block in the four modes, and the register list in ascending order (R390). -/
def Obligations.BlockAddresses : Prop :=
  (∀ (base : Word) (n : Nat),
    blockStart false true base n = base ∧ blockStart true true base n = base + 4#32 ∧
    blockStart false false base n = base - BitVec.ofNat 32 (4 * n) + 4#32 ∧
    blockStart true false base n = base - BitVec.ofNat 32 (4 * n) ∧
    blockEnd true base n = base + BitVec.ofNat 32 (4 * n) ∧ blockEnd false base n = base - BitVec.ofNat 32 (4 * n) ∧
    (wordAddr base n).toNat = (base.toNat + 4 * n) % 2 ^ 32 / 4 * 4) ∧
  (∀ list : BitVec 16, (∀ r : Reg, r ∈ regList list ↔ list.getLsbD r.toNat = true) ∧
    (regList list).Pairwise fun a b => a.toNat < b.toNat)

/-- LDM (1), LDM (2), Thumb LDMIA and Thumb POP that do not load R15 (R395, R398, 48_thumb_memory_branch.md R621, R630); LDM
(2) in User or System mode is refused. What another master writes between two words of a block is seen by the later one (20_memory.md
R142), which is sequential, and DMORE is HIGH with the first and LOW with the last (R103, R106). -/
def Obligations.LoadMultiple : Prop :=
  ∀ s : State,
    (∀ c p u w rn (list : BitVec 16), let rl := regList list
      Runs (.ldm1 c p u w rn list) s → list.getLsbD 15 = false →
      BlockReadable s (blockStart p u (s.reg rn) rl.length) rl.length →
      ∃ t, exec (.ldm1 c p u w rn list) s = .next t ∧ t.cpsr = s.cpsr ∧ FallsThrough s t ∧
        BlockLoadDone s.mode rl (blockStart p u (s.reg rn) rl.length)
          (if w then some (rn, blockEnd u (s.reg rn) rl.length) else none) s t) ∧
    (∀ c p u w rn (list : BitVec 15), let rl := regList list
      Runs (.ldm2 c p u w rn list) s → hasUserForm s.mode = true →
      BlockReadable s (blockStart p u (s.reg rn) rl.length) rl.length →
      ∃ t, exec (.ldm2 c p u w rn list) s = .next t ∧ t.cpsr = s.cpsr ∧ FallsThrough s t ∧ t.pipe.userBank = true ∧
        BlockLoadDone usrMode rl (blockStart p u (s.reg rn) rl.length) none s t) ∧
    (∀ c p u w rn (list : BitVec 15), Runs (.ldm2 c p u w rn list) s → hasUserForm s.mode = false →
      exec (.ldm2 c p u w rn list) s = .refused (.unpredictable .noUserBank)) ∧
    (∀ rb (list : BitVec 8), let rl := regList list
      Runs (.tLdmia rb list) s → BlockReadable s (s.reg (lowReg rb)) rl.length →
      ∃ t, exec (.tLdmia rb list) s = .next t ∧ t.cpsr = s.cpsr ∧ FallsThrough s t ∧
        BlockLoadDone s.mode rl (s.reg (lowReg rb))
          (if lowReg rb ∈ rl then none else some (lowReg rb, s.reg (lowReg rb) + BitVec.ofNat 32 (4 * rl.length))) s t) ∧
    (∀ list : BitVec 8, let rl := regList list
      Runs (.tPop false list) s → BlockReadable s (s.reg 13#4) rl.length →
      ∃ t, exec (.tPop false list) s = .next t ∧ t.cpsr = s.cpsr ∧ FallsThrough s t ∧
        BlockLoadDone s.mode rl (s.reg 13#4) (some (13#4, s.reg 13#4 + BitVec.ofNat 32 (4 * rl.length))) s t) ∧
    (∀ a b ws gaps, s.sys.others = ws :: gaps → Readable s a .word false → Readable s b .word false →
      (readWords [a, b] s).1 = [some (busWordAt s.pins.bigend s.mem a), some (busWordAt s.pins.bigend
        (Memory.writeAll s.mem (ws.map fun x => (x.1.toNat, x.2))) b)] ∧
      (readWords [a, b] s).2.bus.map (fun e => (e.seq, e.more)) =
        (true, false) :: (false, true) :: s.bus.map fun e => (e.seq, e.more))

/-- LDM (1), LDM (3) and Thumb POP that load R15 from the last word of the block: LDM (1) stays in ARM state, POP in Thumb state,
LDM (3) restores the CPSR from the SPSR, and is refused where that cannot be (R395, R400, R621). -/
def Obligations.LoadMultipleToPc : Prop :=
  ∀ s : State,
    (∀ c p u w rn (list : BitVec 16), let rl := regList list
      let start := blockStart p u (s.reg rn) rl.length
      Runs (.ldm1 c p u w rn list) s → list.getLsbD 15 = true → BlockReadable s start rl.length →
      ∃ t, exec (.ldm1 c p u w rn list) s = .next t ∧ t.cpsr = s.cpsr ∧
        t.pc = busWordAt s.pins.bigend s.mem (wordAddr start (rl.length - 1)) &&& 0xFFFFFFFC#32 ∧
        BlockLoadDone s.mode rl start (if w then some (rn, blockEnd u (s.reg rn) rl.length) else none) s t) ∧
    (∀ c p u w rn (list : BitVec 15) q, let rl := regList (1#1 ++ list)
      let start := blockStart p u (s.reg rn) rl.length
      Runs (.ldm3 c p u w rn list) s → s.spsrOf s.mode = some q → legalMode (modeOf q) = true →
      BlockReadable s start rl.length →
      ∃ t, exec (.ldm3 c p u w rn list) s = .next t ∧ t.cpsr = q ∧
        t.pc = busWordAt s.pins.bigend s.mem (wordAddr start (rl.length - 1)) &&&
          (if bitT q then 0xFFFFFFFE#32 else 0xFFFFFFFC#32) ∧
        BlockLoadDone s.mode rl start (if w then some (rn, blockEnd u (s.reg rn) rl.length) else none) s t) ∧
    (∀ c p u w rn (list : BitVec 15), let rl := regList (1#1 ++ list)
      Runs (.ldm3 c p u w rn list) s →
      (s.spsrOf s.mode = none → exec (.ldm3 c p u w rn list) s = .refused (.unpredictable .noSpsr)) ∧
      (∀ q, s.spsrOf s.mode = some q → legalMode (modeOf q) = false →
        BlockReadable s (blockStart p u (s.reg rn) rl.length) rl.length →
        exec (.ldm3 c p u w rn list) s = .refused (.unpredictable .illegalMode))) ∧
    (∀ list : BitVec 8, let rl := regList list ++ [15#4]
      Runs (.tPop true list) s → BlockReadable s (s.reg 13#4) rl.length →
      ∃ t, exec (.tPop true list) s = .next t ∧ t.cpsr = s.cpsr ∧
        t.pc = busWordAt s.pins.bigend s.mem (wordAddr (s.reg 13#4) (rl.length - 1)) &&& 0xFFFFFFFE#32 ∧
        BlockLoadDone s.mode rl (s.reg 13#4) (some (13#4, s.reg 13#4 + BitVec.ofNat 32 (4 * rl.length))) s t)

/-- STM (1), STM (2), Thumb STMIA and Thumb PUSH (R397, R399, R620, R629); STM (2) in User or System mode is refused, and so is an STMIA
whose base is in its list and not the lowest (R629, U2). That such an STMIA completes in a run that does not refuse it, storing some value
`v` for the base, is the MODEL's choice (log 12, log 45): R629 leaves that one value open. -/
def Obligations.StoreMultiple : Prop :=
  ∀ s : State,
    (∀ c p u w rn (list : BitVec 16), let rl := regList list
      let start := blockStart p u (s.reg rn) rl.length
      Runs (.stm1 c p u w rn list) s → BlockWritable s start rl.length →
      ∃ t, exec (.stm1 c p u w rn list) s = .next t ∧
        BlockStoreDone start (rl.map s.storedReg) (if w then some (rn, blockEnd u (s.reg rn) rl.length) else none) s t) ∧
    (∀ c p u w rn (list : BitVec 16), let rl := regList list
      let start := blockStart p u (s.reg rn) rl.length
      Runs (.stm2 c p u w rn list) s → hasUserForm s.mode = true → BlockWritable s start rl.length →
      ∃ t, exec (.stm2 c p u w rn list) s = .next t ∧ t.pipe.userBank = true ∧
        BlockStoreDone start (rl.map fun r => if r = 15#4 then s.pcStored else s.bankReg usrMode r) none s t) ∧
    (∀ c p u w rn (list : BitVec 16), Runs (.stm2 c p u w rn list) s → hasUserForm s.mode = false →
      exec (.stm2 c p u w rn list) s = .refused (.unpredictable .noUserBank)) ∧
    (∀ rb (list : BitVec 8), let rl := regList list
      Runs (.tStmia rb list) s → (s.pins.strict = false ∨ baseNotLowest rb list = false) →
      BlockWritable s (s.reg (lowReg rb)) rl.length →
      ∃ t v, exec (.tStmia rb list) s = .next t ∧
        BlockStoreDone (s.reg (lowReg rb))
          (rl.map fun r => if r = lowReg rb ∧ rl.head? ≠ some r then v else s.reg r)
          (some (lowReg rb, s.reg (lowReg rb) + BitVec.ofNat 32 (4 * rl.length))) s t) ∧
    (∀ rb (list : BitVec 8),
      (baseNotLowest rb list = true ↔ lowReg rb ∈ regList list ∧ (regList list).head? ≠ some (lowReg rb)) ∧
      (Runs (.tStmia rb list) s → s.pins.strict = true → baseNotLowest rb list = true →
        exec (.tStmia rb list) s = .refused (.unpredictable .baseInList))) ∧
    (∀ lr (list : BitVec 8), let rl := regList list ++ (if lr then [14#4] else [])
      let start := s.reg 13#4 - BitVec.ofNat 32 (4 * rl.length)
      Runs (.tPush lr list) s → BlockWritable s start rl.length →
      ∃ t, exec (.tPush lr list) s = .next t ∧ BlockStoreDone start (rl.map s.reg) (some (13#4, start)) s t)

/-- A block transfer one of whose words is aborted enters the Data Abort: a load with its base restored, its PC not loaded and its
CPSR saved unchanged, a store with no register of its own written; of memory a load changes nothing, a store no byte outside the
block, and the words ahead of the aborted one are written (R393, 48_thumb_memory_branch.md R592, 60_exceptions.md R683 to R685). An STMIA
with a base in its list that is not the lowest is refused (R629, U2); that it runs, storing some value `v` for it, in a run that does not
refuse it, is the MODEL's choice (log 12, log 45). -/
def Obligations.AbortedBlocks : Prop :=
  ∀ s : State,
    (∀ c p u w rn (list : BitVec 16), let rl := regList list
      Runs (.ldm1 c p u w rn list) s → BlockAborts s (blockStart p u (s.reg rn) rl.length) rl.length false →
      ∃ t, exec (.ldm1 c p u w rn list) s = .next t ∧ BlockLoadAborted s.mode rl rn s t) ∧
    (∀ c p u w rn (list : BitVec 15), let rl := regList list
      Runs (.ldm2 c p u w rn list) s → hasUserForm s.mode = true →
      BlockAborts s (blockStart p u (s.reg rn) rl.length) rl.length false →
      ∃ t, exec (.ldm2 c p u w rn list) s = .next t ∧ BlockLoadAborted usrMode rl rn s t) ∧
    (∀ c p u w rn (list : BitVec 15), let rl := regList (1#1 ++ list)
      Runs (.ldm3 c p u w rn list) s → s.spsrOf s.mode ≠ none →
      BlockAborts s (blockStart p u (s.reg rn) rl.length) rl.length false →
      ∃ t, exec (.ldm3 c p u w rn list) s = .next t ∧ BlockLoadAborted s.mode rl rn s t) ∧
    (∀ rb (list : BitVec 8), let rl := regList list
      Runs (.tLdmia rb list) s → BlockAborts s (s.reg (lowReg rb)) rl.length false →
      ∃ t, exec (.tLdmia rb list) s = .next t ∧ BlockLoadAborted s.mode rl (lowReg rb) s t) ∧
    (∀ pc (list : BitVec 8), let rl := regList list ++ (if pc then [15#4] else [])
      Runs (.tPop pc list) s → BlockAborts s (s.reg 13#4) rl.length false →
      ∃ t, exec (.tPop pc list) s = .next t ∧ BlockLoadAborted s.mode rl 13#4 s t) ∧
    (∀ c p u w rn (list : BitVec 16), let rl := regList list
      Runs (.stm1 c p u w rn list) s → BlockAborts s (blockStart p u (s.reg rn) rl.length) rl.length true →
      ∃ t, exec (.stm1 c p u w rn list) s = .next t ∧ Enters .dataAbort (s.pc + 8#32) s t ∧
        PartlyStored (blockStart p u (s.reg rn) rl.length) (rl.map s.storedReg) s t) ∧
    (∀ c p u w rn (list : BitVec 16), let rl := regList list
      Runs (.stm2 c p u w rn list) s → hasUserForm s.mode = true →
      BlockAborts s (blockStart p u (s.reg rn) rl.length) rl.length true →
      ∃ t, exec (.stm2 c p u w rn list) s = .next t ∧ Enters .dataAbort (s.pc + 8#32) s t ∧
        PartlyStored (blockStart p u (s.reg rn) rl.length) (rl.map fun r => if r = 15#4 then s.pcStored else s.bankReg usrMode r) s t) ∧
    (∀ rb (list : BitVec 8), let rl := regList list
      Runs (.tStmia rb list) s → (s.pins.strict = false ∨ baseNotLowest rb list = false) →
      BlockAborts s (s.reg (lowReg rb)) rl.length true →
      ∃ t v, exec (.tStmia rb list) s = .next t ∧ Enters .dataAbort (s.pc + 8#32) s t ∧
        PartlyStored (s.reg (lowReg rb)) (rl.map fun r => if r = lowReg rb ∧ rl.head? ≠ some r then v else s.reg r) s t) ∧
    (∀ lr (list : BitVec 8), let rl := regList list ++ (if lr then [14#4] else [])
      Runs (.tPush lr list) s → BlockAborts s (s.reg 13#4 - BitVec.ofNat 32 (4 * rl.length)) rl.length true →
      ∃ t, exec (.tPush lr list) s = .next t ∧ Enters .dataAbort (s.pc + 8#32) s t ∧
        PartlyStored (s.reg 13#4 - BitVec.ofNat 32 (4 * rl.length)) (rl.map s.reg) s t)

/-! ## Branches and exceptions -/

/-- B and BL from ARM state: a signed offset in words from the address + 8; BL leaves the address + 4 in R14
(45_arm_branch_exception.md R431, R432). That a BL scanned in in debug state links so too is the MODEL's choice (log 25): R786 names no
link. -/
def Obligations.ArmBranches : Prop :=
  ∀ (s : State) (c : Cond) (off : BitVec 24), bitT s.cpsr = false →
    (Runs (.b c off) s →
      JumpDone (.b c off) s (s.pc + 8#32 + BitVec.ofInt 32 (4 * off.toInt)) s.cpsr []) ∧
    (Runs (.bl c off) s →
      JumpDone (.bl c off) s (s.pc + 8#32 + BitVec.ofInt 32 (4 * off.toInt)) s.cpsr [(14#4, s.pc + 4#32)])

/-- BX in either state: bit 0 of the register becomes T, the rest is the address; an ARM address with bit 1 set is refused (R436,
48_thumb_memory_branch.md R612). -/
def Obligations.BranchExchange : Prop :=
  ∀ (s : State) (i : Instr) (v : Word),
    ((∃ c rm, i = .bx c 0xFFF#12 rm ∧ v = s.reg rm) ∨ (∃ h2 rs, i = .tBx false h2 rs 0#3 ∧ v = s.reg (hiReg h2 rs))) →
    Runs i s →
    (v.getLsbD 0 = false → v.getLsbD 1 = true → exec i s = .refused (.unpredictable .bxUnaligned)) ∧
    (v.getLsbD 0 = true ∨ v.getLsbD 1 = false →
      ∃ t, exec i s = .next t ∧ t.pc = v &&& 0xFFFFFFFE#32 ∧ t.regs = s.regs ∧ SameOutside s t ∧
        ∀ k, k < 32 → t.cpsr.getLsbD k = if k = 5 then v.getLsbD 0 else s.cpsr.getLsbD k)

/-- The Thumb branches from Thumb state: B, conditional B taken or not, and the two halves of BL (R634, R638, R640, R641). That the second
half links so in debug state too is the MODEL's choice (log 25), and that bit 0 of its target is cleared its inference (log 39). -/
def Obligations.ThumbBranches : Prop :=
  ∀ s : State, bitT s.cpsr = true →
    (∀ off : BitVec 11, JumpDone (.tB off) s (s.pc + 4#32 + BitVec.ofInt 32 (2 * off.toInt)) s.cpsr []) ∧
    (∀ c (off : BitVec 8), JumpDone (.tBCond c off) s
      (if conditionPassed c s.cpsr then s.pc + 4#32 + BitVec.ofInt 32 (2 * off.toInt) else s.pc + 2#32) s.cpsr []) ∧
    (∀ off : BitVec 11, JumpDone (.tBl1 off) s (s.pc + 2#32) s.cpsr
      [(14#4, s.pc + 4#32 + BitVec.ofInt 32 (4096 * off.toInt))]) ∧
    (∀ off : BitVec 11, JumpDone (.tBl2 off) s
      ((s.reg 14#4 + BitVec.ofNat 32 (2 * off.toNat)) &&& 0xFFFFFFFE#32) s.cpsr
      [(14#4, (s.pc + 2#32) ||| 1#32)])

/-- SWI in either state enters the Software Interrupt with the next instruction as link (R440, R636, 60_exceptions.md R675). -/
def Obligations.SoftwareInterrupt : Prop :=
  ∀ (s : State) (i : Instr), ((∃ c imm, i = .swi c imm) ∨ (∃ n, i = .tSwi n)) → Runs i s →
    ∃ t, exec i s = .next t ∧ Enters .swi (s.pc + s.width) s t ∧ SameWorld s t ∧ t.cop = s.cop

/-- Every UNDEFINED row of the table, ARM and Thumb, enters the Undefined Instruction with the next instruction as link (R445,
R644, 60_exceptions.md R674). -/
def Obligations.UndefinedInstruction : Prop :=
  ∀ (s : State) (i : Instr),
    ((∃ c body, i = .undArith c body ∨ i = .undLsA c body ∨ i = .undLsB c body ∨ i = .undCtlReg c body ∨
        i = .undCtlImm c body ∨ i = .undSpace c body ∨ i = .undCop c body) ∨
      (∃ b, i = .tUnd1011 b) ∨ (∃ n, i = .tUndDE n) ∨ (∃ n, i = .tUnd11101 n)) →
    Runs i s →
    ∃ t, exec i s = .next t ∧ Enters .undefined (s.pc + s.width) s t ∧ SameWorld s t ∧ t.cop = s.cop

/-- Exception entry (60_exceptions.md R660, R661, R670, R671): the modes, the vectors, and what entry writes. -/
def Obligations.ExceptionEntry : Prop :=
  (Exc.undefined.mode = 0b11011#5 ∧ Exc.swi.mode = 0b10011#5 ∧ Exc.prefetchAbort.mode = 0b10111#5 ∧
    Exc.dataAbort.mode = 0b10111#5 ∧ Exc.irq.mode = 0b10010#5 ∧ Exc.fiq.mode = 0b10001#5) ∧
  (4 * Exc.undefined.vector = 0x04 ∧ 4 * Exc.swi.vector = 0x08 ∧ 4 * Exc.prefetchAbort.vector = 0x0C ∧
    4 * Exc.dataAbort.vector = 0x10 ∧ 4 * Exc.irq.vector = 0x18 ∧ 4 * Exc.fiq.vector = 0x1C) ∧
  ∀ (e : Exc) (link : Word) (s : State), Enters e link s (s.raise e link) ∧ SameWorld s (s.raise e link)

/-- The return the spec names for each exception, run in ARM state right after its entry, restores the interrupted CPSR and
continues where the spec says; of the registers only R14 of the exception's mode differs from before (R672, R700). -/
def Obligations.HandlerReturns : Prop :=
  ∀ (s h : State) (i : Instr) (resume : Word), Inv s → s.dbg.inDebug = false →
    ((h = s.takeIrq ∧ i = .subImm .al true 14#4 15#4 ⟨0#4, 4#8⟩ ∧ resume = s.pc) ∨
      (h = s.takeFiq ∧ i = .subImm .al true 14#4 15#4 ⟨0#4, 4#8⟩ ∧ resume = s.pc) ∨
      (h = s.takePrefetchAbort ∧ i = .subImm .al true 14#4 15#4 ⟨0#4, 4#8⟩ ∧ resume = s.pc) ∨
      (h = s.takeDataAbort ∧ i = .subImm .al true 14#4 15#4 ⟨0#4, 8#8⟩ ∧ resume = s.pc) ∨
      (h = s.takeUndefined ∧ i = .movShiftImm .al true 0#4 15#4 ⟨0#5, .lsl, 14#4⟩ ∧ resume = s.pc + s.width) ∨
      (h = s.takeSwi ∧ i = .movShiftImm .al true 0#4 15#4 ⟨0#5, .lsl, 14#4⟩ ∧ resume = s.pc + s.width)) →
    ∃ t, exec i h = .next t ∧ t.pc = resume ∧ t.cpsr = s.cpsr ∧ OnlyRegs h.mode [14#4] s t ∧ SameWorld s t

/-- At a boundary where FIQ or IRQ is LOW and enabled and nothing of higher priority is due, the step enters it; FIQ goes before
IRQ, and a masked interrupt is not taken (60_exceptions.md R664, R678, R679, R690); a busy-waiting coprocessor instruction is
abandoned (46_arm_coprocessor.md R476), a watchpoint that is due waits for the entry (61_debug.md R754), and the entry is the one step of
a single step (R820). That the interrupt is taken
at this very boundary, whatever ISYNC is, is the MODEL's choice (log 23): R691 and D8 leave the synchroniser's delay open. -/
def Obligations.InterruptTaken : Prop :=
  ∀ s : State, Awake s → s.dbg.stepDue = false → dbgrqi s = false → s.ice.dbgCtl.getLsbD 2 = false →
    let quiet := fun t : State => t.mem = s.mem ∧ t.bus = s.bus ∧ t.instrExec = false ∧ t.pass = false ∧
      (s.dbg.watch = .due → t.dbg.watch = .due) ∧ (s.dbg.stepArmed = true → t.dbg.stepDue = true) ∧
      t.cop.log = s.cop.log ++ if s.pipe.busyWait then [.abandoned] else []
    (s.pins.nfiqLow = true → maskF s.cpsr = false →
      ∃ t, step s = .next t ∧ Enters .fiq (s.pc + 4#32) s t ∧ quiet t) ∧
    (s.pins.nirqLow = true → maskI s.cpsr = false →
      (maskF s.cpsr = true ∨ (s.pins.nfiqLow = false ∧ s.pins.fiqPulse = false)) →
      ∃ t, step s = .next t ∧ Enters .irq (s.pc + 4#32) s t ∧ quiet t) ∧
    (maskF s.cpsr = true → s.filled.fiqDue = false) ∧ (maskI s.cpsr = true → s.filled.irqDue = false)

/-- An instruction fetched with IABORT is not executed: the step enters the Prefetch Abort instead (R677); the mark is that of its
fetch, be it made now or already in the prefetch queue (20_memory.md R161, 10_state.md R77). -/
def Obligations.PrefetchAborted : Prop :=
  ∀ s : State,
    (Quiet s → s.filled.fetchAborts = true →
      ∃ t, step s = .next t ∧ Enters .prefetchAbort (s.pc + 4#32) s t ∧ t.mem = s.mem ∧ t.bus = s.bus ∧ t.instrExec = false) ∧
    (s.pipe.queue = [] → ∀ r, s.fetchRule s.pc = some r → s.filled.fetchAborts = r.answer.aborts) ∧
    (s.pipe.queue = [] → s.fetchRule s.pc = none → s.filled.fetchAborts = false) ∧
    (∀ k q, s.pipe.queue = k :: q → s.filled.fetchAborts = k.aborted)

/-- nRESET LOW puts the core in Supervisor mode, ARM state, with both interrupts masked and the PC at the vector base; registers
other than R14_svc, SPSRs other than SPSR_svc, memory and the EmbeddedICE are kept; while it is LOW the core does nothing
(10_state.md R91 to R93, 60_exceptions.md R673, 70_reset_and_hazards.md R900, R901, R904). Within a step of the core it strikes after `k`
data accesses: those stay made, no other is made, of an STM (1) the first `k` words are written, and a register keeps its value unless the
step was writing it (R900); a step that the model stops has done nothing (the MODEL's choice, log 24). In debug state nRESET LOW is
refused (92_eei_decisions.md D16); that it resets there too and leaves debug state, in a run that does not refuse it, is the MODEL's
inference from 61_debug.md R762 (log 14, log 45). -/
def Obligations.ResetPin : Prop :=
  (∀ (s : State) (rest : List Move), s.schedule = .reset true :: rest → (s.dbg.inDebug = false ∨ s.pins.strict = false) →
    ∃ t, step s = .next t ∧ t.mode = svcMode ∧ bitT t.cpsr = false ∧ maskI t.cpsr = true ∧ maskF t.cpsr = true ∧
      t.cpsr.extractLsb' 8 20 = 0#20 ∧ t.pc = (if s.pins.hivecs then 0xFFFF0000#32 else 0#32) ∧
      OnlyRegs svcMode [14#4] s t ∧ (∀ k : Fin 5, spsrIndex svcMode ≠ some k → t.spsr.get k = s.spsr.get k) ∧
      t.mem = s.mem ∧ t.imem = s.imem ∧ t.ice = s.ice ∧ t.tap = s.tap ∧ t.inReset = true ∧ t.dbg.inDebug = false ∧
      t.pipe.queue = [] ∧ t.instrExec = false ∧ t.pass = false ∧
      t.cop.log = (s.cop.log ++ if s.pipe.busyWait then [.abandoned] else []) ∧ t.schedule = rest) ∧
  (∀ s : State, s.inReset = true → s.schedule = [] → step s = .next s) ∧
  (∀ (s : State) (k : Nat) (rest : List Move), s.dbg.inDebug = true → s.pins.strict = true →
    s.schedule = .reset true :: rest ∨ s.schedule = .resetDuring k :: rest → step s = .refused .resetInDebug) ∧
  (∀ (s : State) (k : Nat) (rest : List Move), s.schedule = .resetDuring k :: rest →
    (s.dbg.inDebug = false ∨ s.pins.strict = false) →
    let struck := State.coreStep { s with schedule := rest, wrote := [], sys := { s.sys with budget := some k } }
    ∃ t, step s = .next t ∧ t.mode = svcMode ∧ bitT t.cpsr = false ∧ maskI t.cpsr = true ∧ maskF t.cpsr = true ∧
      t.pc = (if s.pins.hivecs then 0xFFFF0000#32 else 0#32) ∧ t.inReset = true ∧ t.dbg.inDebug = false ∧ t.pipe.queue = [] ∧
      t.instrExec = false ∧ t.pass = false ∧ t.sys.budget = none ∧
      (∀ u, struck = .next u → t.mem = u.mem ∧ t.imem = u.imem ∧ t.bus = u.bus ∧
        (∀ j : Fin 30, j ≠ bankIndex svcMode 14#4 → j.val ∉ u.wrote → t.regs.get j = s.regs.get j) ∧
        (∀ j : Fin 5, spsrIndex svcMode ≠ some j → 30 + j.val ∉ u.wrote → t.spsr.get j = s.spsr.get j)) ∧
      ((∀ u, struck ≠ .next u) → t.mem = s.mem ∧ t.imem = s.imem ∧ t.bus = s.bus ∧ OnlyRegs svcMode [14#4] s t ∧
        ∀ j : Fin 5, spsrIndex svcMode ≠ some j → t.spsr.get j = s.spsr.get j)) ∧
  (∀ (s : State) (a v : Word) (size : Size) (user : Bool) (b : Beat) (late : Bool), s.debugSpeed = false →
    s.sys.budget = some 0 →
      ((s.readData a size user b).2.mem = s.mem ∧ (s.readData a size user b).2.bus = s.bus) ∧
      ((s.writeData a size v user b late).2.mem = s.mem ∧ (s.writeData a size v user b late).2.bus = s.bus)) ∧
  (∀ (s : State) c p u w rn (list : BitVec 16) (k : Nat), let rl := regList list
    let start := blockStart p u (s.reg rn) rl.length
    Runs (.stm1 c p u w rn list) s → BlockWritable s start rl.length →
    ∃ t, exec (.stm1 c p u w rn list) { s with sys := { s.sys with budget := some k } } = .next t ∧
      Stored (blockBytes s.pins.bigend start ((rl.map s.storedReg).take k)) s t ∧
      t.bus.length = s.bus.length + min k rl.length)

/-! ## Thumb data processing -/

/-- Thumb formats 1 to 3: immediate shifts, add, subtract, move and compare (47_thumb_data.md R524 to R534). -/
def Obligations.ThumbShiftAddMove : Prop :=
  ∀ (s : State) (rs rd : LowReg),
    (∀ n : BitVec 5, ∀ ty i, (ty = .lsl ∧ i = .tLslImm n rs rd) ∨ (ty = .lsr ∧ i = .tLsrImm n rs rd) ∨
        (ty = .asr ∧ i = .tAsrImm n rs rd) →
      DataDone i s .mov true (lowReg rd) 0#32 (shiftByImm ty (s.reg (lowReg rs)) n.toNat (flagC s.cpsr)).val
        (shiftByImm ty (s.reg (lowReg rs)) n.toNat (flagC s.cpsr)).carry) ∧
    (∀ rn : LowReg,
      DataDone (.tAddReg rn rs rd) s .add true (lowReg rd) (s.reg (lowReg rs)) (s.reg (lowReg rn)) false ∧
      DataDone (.tSubReg rn rs rd) s .sub true (lowReg rd) (s.reg (lowReg rs)) (s.reg (lowReg rn)) false) ∧
    (∀ n : BitVec 3,
      DataDone (.tAddImm3 n rs rd) s .add true (lowReg rd) (s.reg (lowReg rs)) (n.setWidth 32) false ∧
      DataDone (.tSubImm3 n rs rd) s .sub true (lowReg rd) (s.reg (lowReg rs)) (n.setWidth 32) false) ∧
    (∀ n : BitVec 8,
      DataDone (.tMovImm rd n) s .mov true (lowReg rd) 0#32 (n.setWidth 32) (flagC s.cpsr) ∧
      DataDone (.tCmpImm rd n) s .cmp true (lowReg rd) (s.reg (lowReg rd)) (n.setWidth 32) false ∧
      DataDone (.tAddImm rd n) s .add true (lowReg rd) (s.reg (lowReg rd)) (n.setWidth 32) false ∧
      DataDone (.tSubImm rd n) s .sub true (lowReg rd) (s.reg (lowReg rd)) (n.setWidth 32) false)

/-- Thumb format 4 but MUL (R540 to R552, R557, R558). -/
def Obligations.ThumbAlu : Prop :=
  ∀ (s : State) (rs rd : LowReg),
    let a := s.reg (lowReg rd)
    let b := s.reg (lowReg rs)
    let c := flagC s.cpsr
    let done := fun (i : Instr) (op : DpOp) => DataDone i s op true (lowReg rd) a b c
    let shifted := fun (i : Instr) (ty : ShiftType) =>
      DataDone i s .mov true (lowReg rd) 0#32 (shiftByReg ty a (b.toNat % 256) c).val (shiftByReg ty a (b.toNat % 256) c).carry
    done (.tAnd rs rd) .and ∧ done (.tEor rs rd) .eor ∧ shifted (.tLsl rs rd) .lsl ∧ shifted (.tLsr rs rd) .lsr ∧
      shifted (.tAsr rs rd) .asr ∧ done (.tAdc rs rd) .adc ∧ done (.tSbc rs rd) .sbc ∧ shifted (.tRor rs rd) .ror ∧
      done (.tTst rs rd) .tst ∧ DataDone (.tNeg rs rd) s .sub true (lowReg rd) 0#32 b c ∧ done (.tCmp rs rd) .cmp ∧
      done (.tCmn rs rd) .cmn ∧ done (.tOrr rs rd) .orr ∧ done (.tBic rs rd) .bic ∧ done (.tMvn rs rd) .mvn

/-- Thumb formats 5, 12 and 13: high registers, addresses from PC and SP, stack adjustment; R15 as a destination jumps and
stays in Thumb state (R560 to R562, R570 to R573). -/
def Obligations.ThumbHighAndSp : Prop :=
  ∀ s : State,
    (∀ h1 h2 rs rd, let d := hiReg h1 rd
      let a := s.reg d
      let b := s.reg (hiReg h2 rs)
      (Runs (.tAddHi h1 h2 rs rd) s → d ≠ 15#4 → DataDone (.tAddHi h1 h2 rs rd) s .add false d a b false) ∧
      (Runs (.tMovHi h1 h2 rs rd) s → d ≠ 15#4 → DataDone (.tMovHi h1 h2 rs rd) s .mov false d a b false) ∧
      (Runs (.tCmpHi h1 h2 rs rd) s → DataDone (.tCmpHi h1 h2 rs rd) s .cmp true d a b false) ∧
      (Runs (.tAddHi h1 h2 rs rd) s → d = 15#4 →
        JumpDone (.tAddHi h1 h2 rs rd) s ((a + b) &&& 0xFFFFFFFE#32) s.cpsr []) ∧
      (Runs (.tMovHi h1 h2 rs rd) s → d = 15#4 →
        JumpDone (.tMovHi h1 h2 rs rd) s (b &&& 0xFFFFFFFE#32) s.cpsr [])) ∧
    (∀ (rd : LowReg) (n : BitVec 8),
      (bitT s.cpsr = true → DataDone (.tAddPc rd n) s .add false (lowReg rd) ((s.pc + 4#32) &&& 0xFFFFFFFC#32)
        (BitVec.ofNat 32 (4 * n.toNat)) false) ∧
      DataDone (.tAddSp rd n) s .add false (lowReg rd) (s.reg 13#4) (BitVec.ofNat 32 (4 * n.toNat)) false) ∧
    (∀ n : BitVec 7,
      DataDone (.tIncSp n) s .add false 13#4 (s.reg 13#4) (BitVec.ofNat 32 (4 * n.toNat)) false ∧
      DataDone (.tDecSp n) s .sub false 13#4 (s.reg 13#4) (BitVec.ofNat 32 (4 * n.toNat)) false)

/-! ## Thumb loads and stores -/

/-- The Thumb loads (48_thumb_memory_branch.md R594 to R610). A word load from an unaligned address is refused (R591, U11); that it
completes, with data left free, in a run that does not refuse it, is the MODEL's choice (log 11, log 45): R591 leaves the data open. -/
def Obligations.ThumbLoads : Prop :=
  ∀ s : State,
    let word := fun (i : Instr) (a : Word) (rd : LowReg) =>
      (a.extractLsb' 0 2 = 0#2 → LoadTo i s .word a false none (lowReg rd)) ∧
        (a.extractLsb' 0 2 ≠ 0#2 → LoadOpen i s a (lowReg rd))
    let sub := fun (i : Instr) (k : LoadKind) (a : Word) (rd : LowReg) => LoadTo i s k a false none (lowReg rd)
    (∀ (rd : LowReg) (n : BitVec 8),
      word (.tLdrPc rd n) ((s.pcOperand &&& 0xFFFFFFFC#32) + (n ++ 0#2).setWidth 32) rd ∧
      word (.tLdrSp rd n) (s.reg 13#4 + (n ++ 0#2).setWidth 32) rd) ∧
    (∀ ro rb rd : LowReg, let a := s.reg (lowReg rb) + s.reg (lowReg ro)
      word (.tLdrReg ro rb rd) a rd ∧ sub (.tLdrhReg ro rb rd) .half a rd ∧ sub (.tLdrbReg ro rb rd) .byte a rd ∧
        sub (.tLdshReg ro rb rd) .shalf a rd ∧ sub (.tLdsbReg ro rb rd) .sbyte a rd) ∧
    (∀ (n : BitVec 5) (rb rd : LowReg),
      word (.tLdrImm n rb rd) (s.reg (lowReg rb) + (n ++ 0#2).setWidth 32) rd ∧
      sub (.tLdrhImm n rb rd) .half (s.reg (lowReg rb) + (n ++ 0#1).setWidth 32) rd ∧
      sub (.tLdrbImm n rb rd) .byte (s.reg (lowReg rb) + n.setWidth 32) rd)

/-- The Thumb stores (R595 to R609). A word store to an unaligned address is refused (R591, U11); that it completes, with data left free,
and writes nothing but the aligned word there, in a run that does not refuse it, is the MODEL's choice (log 11, log 45): R591 leaves the
data open. That a store at debug speed is not refused and hands on its register is its inference from R774 (log 11). -/
def Obligations.ThumbStores : Prop :=
  ∀ s : State,
    let word := fun (i : Instr) (a : Word) (rd : LowReg) =>
      (a.extractLsb' 0 2 = 0#2 → StoreTo i s .word a (s.reg (lowReg rd)) false none) ∧
        (a.extractLsb' 0 2 ≠ 0#2 → StoreOpen i s a (s.reg (lowReg rd)))
    let sub := fun (i : Instr) (size : Size) (a : Word) (rd : LowReg) =>
      StoreTo i s size a (s.reg (lowReg rd)) false none
    (∀ (rd : LowReg) (n : BitVec 8), word (.tStrSp rd n) (s.reg 13#4 + (n ++ 0#2).setWidth 32) rd) ∧
    (∀ ro rb rd : LowReg, let a := s.reg (lowReg rb) + s.reg (lowReg ro)
      word (.tStrReg ro rb rd) a rd ∧ sub (.tStrhReg ro rb rd) .half a rd ∧ sub (.tStrbReg ro rb rd) .byte a rd) ∧
    (∀ (n : BitVec 5) (rb rd : LowReg),
      word (.tStrImm n rb rd) (s.reg (lowReg rb) + (n ++ 0#2).setWidth 32) rd ∧
      sub (.tStrhImm n rb rd) .half (s.reg (lowReg rb) + (n ++ 0#1).setWidth 32) rd ∧
      sub (.tStrbImm n rb rd) .byte (s.reg (lowReg rb) + n.setWidth 32) rd)

/-! ## Coprocessors -/

/-- A coprocessor instruction answered ABSENT, or with no answer left in the queue (the MODEL's choice, log 20), enters the Undefined
Instruction; answered WAIT it stays in execute with nothing changed but the answer used up, and a coprocessor that answers WAIT
for ever keeps it there (46_arm_coprocessor.md R465, R471 to R473). The answers come from the handshake codes: a coprocessor that
is not addressed does not disturb another's, and WAIT^w GO^k LAST is w waits and an acceptance (R464, R471). -/
def Obligations.CoprocessorAbsentOrWaiting : Prop :=
  (∀ (s : State) (i : Instr) (rest : List CpReply), offered i = true → Runs i s →
    (s.cop.replies = [] ∨ s.cop.replies = .absent :: rest → ∃ t, exec i s = .next t ∧
      Enters .undefined (s.pc + s.width) s t ∧ SameWorld s t ∧ t.pass = true) ∧
    (s.cop.replies = .wait :: rest → ∃ t, exec i s = .next t ∧ t.pc = s.pc ∧ t.regs = s.regs ∧ t.cpsr = s.cpsr ∧
      t.pipe.busyWait = true ∧ t.pass = true ∧ t.cop.replies = rest ∧ t.cop.log = s.cop.log ∧ SameButCop s t) ∧
    (s.cop.replies = .stall :: rest → ∃ t, exec i s = .next t ∧ t.pc = s.pc ∧ t.regs = s.regs ∧ t.cpsr = s.cpsr ∧
      t.pipe.busyWait = true ∧ t.pass = true ∧ t.cop = s.cop ∧ SameButCop s t)) ∧
  (Chs.ofBits 0b10#2 = .absent ∧ Chs.ofBits 0b00#2 = .wait ∧ Chs.ofBits 0b01#2 = .go ∧ Chs.ofBits 0b11#2 = .last) ∧
  (Chs.combine [] = .absent ∧ ∀ (b : BitVec 2) (m n : Nat),
    Chs.combine (List.replicate m 0b10#2 ++ b :: List.replicate n 0b10#2) = Chs.ofBits b) ∧
  (∀ (data : List Word) (w k : Nat) (more : List Chs),
    CpReply.ofCodes data 0 (List.replicate w .wait ++ (List.replicate k .go ++ .last :: more)) =
      List.replicate w .wait ++ [.accept k data] ∧
    CpReply.ofCodes data 0 (List.replicate w .wait ++ .absent :: more) = List.replicate w .wait ++ [.absent])

/-- CDP, MCR and MRC accepted by a coprocessor other than 14: the instruction and, for MCR, the register reach it; for MRC the word
it supplies goes to the register, or its top bits to the flags; the data interface shows the transfer (R480 to R482, R488, 20_memory.md
R103). That GO before LAST is taken as LAST alone, but for an MCR to coprocessor 15, is the MODEL's choice (log 20): R471 gives only
LAST there. That the InTRANS level handed over with the instruction is that of the mode it executes in, also behind an MSR that changed
the mode since its fetch, is the MODEL's choice (log 43), on which R479 is silent. -/
def Obligations.CoprocessorAccepted : Prop :=
  ∀ (s : State) (go : Nat) (data : List Word) (rest : List CpReply), Accepts s go data rest →
    (∀ c (o : CopData), Runs (.cdp c o) s → o.cp ≠ 14#4 → ∃ t, exec (.cdp c o) s = .next t ∧ t.regs = s.regs ∧
      t.cpsr = s.cpsr ∧ FallsThrough s t ∧ t.cop = ⟨rest, s.cop.log ++ [.instr (.cdp c o) s.privileged]⟩ ∧
      t.pass = true ∧ t.port = s.port ∧ SameButCop s t) ∧
    (∀ c (o : CopReg), Runs (.mcr c o) s → o.cp ≠ 14#4 → ∃ t, exec (.mcr c o) s = .next t ∧ t.regs = s.regs ∧
      t.cpsr = s.cpsr ∧ FallsThrough s t ∧
      t.cop = ⟨rest, s.cop.log ++ [.instr (.mcr c o) s.privileged] ++ [.moved (s.reg o.rd)]⟩ ∧ t.pass = true ∧
      CopShown true (s.reg o.rd) (o.cp = 15#4 ∧ go ≠ 0) t ∧ SameButCop s t) ∧
    (∀ c (o : CopReg) v vs, Runs (.mrc c o) s → o.cp ≠ 14#4 → data = v :: vs → ∃ t, exec (.mrc c o) s = .next t ∧
      (o.rd ≠ 15#4 → t.bankReg s.mode o.rd = v ∧ t.cpsr = s.cpsr) ∧
      (o.rd = 15#4 → BitsFrom s.cpsr v t.cpsr fun k => decide (28 ≤ k)) ∧ OnlyRegs s.mode [o.rd] s t ∧
      FallsThrough s t ∧ t.cop = ⟨rest, s.cop.log ++ [.instr (.mrc c o) s.privileged]⟩ ∧ t.pass = true ∧
      CopShown false v False t ∧ SameButCop s t)

/-- LDC and STC accepted with `go` GO answers move `go + 1` words between memory and the coprocessor, lowest address first, from the
base or the base plus or minus four times the offset, and write the base back (R483 to R485); when one of them is aborted the Data Abort
is entered, the base keeps its value and the words ahead of the aborted one are written (R486). The coprocessors
receive the instruction with the InTRANS level of the mode it executes in: the MODEL's choice (log 43) behind an MSR that changed the
mode since its fetch, on which R479 is silent. -/
def Obligations.CoprocessorTransfers : Prop :=
  ∀ (s : State) (c : Cond) (m : CopMem) (go : Nat) (data : List Word) (rest : List CpReply), Accepts s go data rest →
    m.cp ≠ 14#4 →
    let start := CopMem.address s m
    let wb := if m.w then some (m.rn, CopMem.target s m) else none
    let base : Int := (s.reg m.rn).toNat
    (((CopMem.target s m).toNat : Int) = (if m.u then base + 4 * m.off.toNat else base - 4 * m.off.toNat) % 2 ^ 32 ∧
      start = if m.p then CopMem.target s m else s.reg m.rn) ∧
    (Runs (.ldc c m) s → BlockReadable s start (go + 1) → ∃ t, exec (.ldc c m) s = .next t ∧
      t.cop = ⟨rest, s.cop.log ++ [.instr (.ldc c m) s.privileged] ++
        (List.range (go + 1)).map fun k => .loaded (busWordAt s.pins.bigend s.mem (wordAddr start k))⟩ ∧
      (∀ x ∈ wb, t.bankReg s.mode x.1 = x.2) ∧ OnlyRegs s.mode (wb.toList.map Prod.fst) s t ∧ t.cpsr = s.cpsr ∧
      FallsThrough s t ∧ (∀ x, t.byteAt x = s.byteAt x) ∧ SameButAccesses s t) ∧
    (Runs (.stc c m) s → BlockWritable s start (go + 1) → data.length = go + 1 → go < 2 ^ 30 → ∃ t, exec (.stc c m) s = .next t ∧
      Stored (blockBytes s.pins.bigend start data) s t ∧
      t.cop = ⟨rest, s.cop.log ++ [.instr (.stc c m) s.privileged]⟩ ∧
      (∀ x ∈ wb, t.bankReg s.mode x.1 = x.2) ∧ OnlyRegs s.mode (wb.toList.map Prod.fst) s t ∧ t.cpsr = s.cpsr ∧
      FallsThrough s t ∧ SameButAccesses s t) ∧
    (Runs (.ldc c m) s → BlockAborts s start (go + 1) false → ∃ t, exec (.ldc c m) s = .next t ∧
      Enters .dataAbort (s.pc + 8#32) s t ∧ t.mem = s.mem) ∧
    (Runs (.stc c m) s → BlockAborts s start (go + 1) true → ∃ t, exec (.stc c m) s = .next t ∧
      Enters .dataAbort (s.pc + 8#32) s t ∧ (data.length = go + 1 → go < 2 ^ 30 → PartlyStored start data s t))

/-- The debug communications channel as coprocessor 14: MRC of the control register, MCR to the data write register, MRC of the
data read register; every other use of coprocessor 14 is refused by name (R490 to R494, U33). The W and R bits reach the other side's
clock by a move (10_state.md R70, 61_debug.md R843), and W stays clear while nTRST is LOW (R744). -/
def Obligations.DebugCommsChannel : Prop :=
  ∀ (s : State) (c : Cond) (rd : Reg),
    (Runs (.mrc c ⟨0#3, 0#4, rd, 14#4, 0#3, 0#4⟩) s →
      ∃ t v, exec (.mrc c ⟨0#3, 0#4, rd, 14#4, 0#3, 0#4⟩) s = .next t ∧ v.extractLsb' 28 4 = 0b0010#4 ∧
        v.getLsbD 1 = s.ice.wCore ∧ v.getLsbD 0 = s.ice.rCore ∧ (rd ≠ 15#4 → t.bankReg s.mode rd = v ∧ t.cpsr = s.cpsr) ∧
        (rd = 15#4 → BitsFrom s.cpsr v t.cpsr fun k => decide (28 ≤ k)) ∧ OnlyRegs s.mode [rd] s t ∧
        FallsThrough s t ∧ t.cop = s.cop ∧ SameButCop s t) ∧
    (Runs (.mcr c ⟨0#3, 1#4, rd, 14#4, 0#3, 0#4⟩) s →
      ∃ t, exec (.mcr c ⟨0#3, 1#4, rd, 14#4, 0#3, 0#4⟩) s = .next t ∧ t.ice.commsWrite = s.reg rd ∧
        t.ice.wBit = !s.pins.ntrstLow ∧ commtx t = s.pins.ntrstLow ∧ t.ice.commsRead = s.ice.commsRead ∧ t.ice.rBit = s.ice.rBit ∧
        t.regs = s.regs ∧ t.cpsr = s.cpsr ∧ FallsThrough s t ∧ t.mem = s.mem ∧ t.cop = s.cop) ∧
    (Runs (.mrc c ⟨0#3, 1#4, rd, 14#4, 0#3, 0#4⟩) s →
      ∃ t, exec (.mrc c ⟨0#3, 1#4, rd, 14#4, 0#3, 0#4⟩) s = .next t ∧
        (rd ≠ 15#4 → t.bankReg s.mode rd = s.ice.commsRead ∧ t.cpsr = s.cpsr) ∧
        (rd = 15#4 → BitsFrom s.cpsr s.ice.commsRead t.cpsr fun k => decide (28 ≤ k)) ∧
        t.ice.rBit = false ∧ commrx t = false ∧ t.ice.wBit = s.ice.wBit ∧ t.ice.commsWrite = s.ice.commsWrite ∧
        OnlyRegs s.mode [rd] s t ∧ FallsThrough s t ∧ t.mem = s.mem ∧ t.cop = s.cop) ∧
    (∀ i : Instr, ((∃ o : CopData, i = .cdp c o ∧ o.cp = 14#4) ∨ (∃ m : CopMem, (i = .ldc c m ∨ i = .stc c m) ∧ m.cp = 14#4) ∨
        (∃ o : CopReg, i = .mcr c o ∧ o.cp = 14#4 ∧ (o.op1 ≠ 0#3 ∨ o.op2 ≠ 0#3 ∨ o.crm ≠ 0#4 ∨ o.crn ≠ 1#4)) ∨
        (∃ o : CopReg, i = .mrc c o ∧ o.cp = 14#4 ∧
          (o.op1 ≠ 0#3 ∨ o.op2 ≠ 0#3 ∨ o.crm ≠ 0#4 ∨ (o.crn ≠ 0#4 ∧ o.crn ≠ 1#4)))) →
      Runs i s → exec i s = .refused .cp14Undescribed) ∧
    (∀ d rest, s.schedule = .commsSync d :: rest → ∃ t, step s = .next t ∧ t.regs = s.regs ∧ t.cpsr = s.cpsr ∧ t.mem = s.mem ∧
      t.ice.wBit = s.ice.wBit ∧ t.ice.rBit = s.ice.rBit ∧ t.ice.commsRead = s.ice.commsRead ∧
      t.ice.commsWrite = s.ice.commsWrite ∧ (d = true → t.ice.wDbg = s.ice.wBit ∧ t.ice.rDbg = s.ice.rBit) ∧
      (d = false → t.ice.wCore = s.ice.wBit ∧ t.ice.rCore = s.ice.rBit))

/-! ## Debug -/

/-- Debug state is entered on a marked fetch, a due watchpoint, a finished single step or a debug request: no register, status
register or memory changes, and R15 then reads five instructions on from where the program is to resume; SYSSPEED shows LOW for a
breakpoint and HIGH for a watchpoint (61_debug.md R744 to R758, R786). Each fetch of those that a step begins with can be made by itself,
and carries the mark of the inputs at that moment: IEBKPT, the units, or the vector catch (R746). Which cause is recorded where causes coincide, and so SYSSPEED
there (a due watchpoint ahead of a step or a request, a mark behind a watchpointed instruction LOW, a request at that boundary entering
before the next instruction), is the MODEL's choice (log 44), and R15 on entry its reading of R786 (log 25). -/
def Obligations.DebugEntry : Prop :=
  (∀ s : State, Awake s →
    ((s.dbg.watch = .due ∧ (s.dbg.stepDue = true ∨ (dbgrqi s = true ∧ s.pipe.busyWait = false) ∨
        (s.filled.fiqDue = false ∧ s.filled.irqDue = false))) ∨ (s.dbg.watch ≠ .due ∧ s.dbg.stepDue = true) ∨
      (s.dbg.watch ≠ .due ∧ s.dbg.stepDue = false ∧ dbgrqi s = true ∧ s.pipe.busyWait = false) ∨
      (Quiet s ∧ s.filled.fetchAborts = false ∧ s.filled.marked = true)) →
    ∃ t, step s = .next t ∧ t.dbg.inDebug = true ∧ dbgack t = true ∧ ifen t = false ∧ t.regs = s.regs ∧
      t.cpsr = s.cpsr ∧ t.spsr = s.spsr ∧ t.mem = s.mem ∧ t.bus = s.bus ∧ t.instrExec = false ∧ t.pipe.queue = [] ∧
      t.pcOperand = s.pc + 5#32 * s.width ∧ (s.dbg.watch = .due → t.dbg.sysspeedBit = true) ∧
      (s.dbg.watch ≠ .due → s.dbg.stepDue = false → dbgrqi s = false → t.dbg.sysspeedBit = false)) ∧
  (∀ (s : State) (rest : List Move), s.schedule = .fetch :: rest → s.inReset = false → s.dbg.inDebug = false → s.cutOff = false →
    s.pipe.wrapped = false → s.pipe.queue.length < 3 →
    ∃ t k, step s = .next t ∧ t.pipe.queue = s.pipe.queue ++ [k] ∧
      (k.marked = true ↔ s.pins.dbgen = true ∧
        (s.pins.iebkpt = true ∨ s.pipe.caught = true ∨ Ice.hit s.ice s.pins s.fetchSeen = true)) ∧
      t.regs = s.regs ∧ t.pc = s.pc ∧ t.cpsr = s.cpsr ∧ t.spsr = s.spsr ∧ t.mem = s.mem ∧ t.bus = s.bus ∧ t.dbg = s.dbg ∧
      t.schedule = rest ∧ t.filled = State.filled { s with schedule := rest })

/-- In debug state the core does nothing by itself; the debugger's move runs a listed instruction as `exec` does and a transfer
of its data passes through the scanned words, any other instruction is refused; a load or store at system speed reaches memory and
comes back with SYSCOMP and SYSSPEED HIGH, DBGACK having fallen once; leaving debug state continues at the target, DBGACK masking the
first three fetches (R760, R764, R771, R772, R782 to R785, R787, R856, 70_reset_and_hazards.md R921); that it falls after exactly three is
the MODEL's choice (log 46). R15 after an aborted access at
system speed, and that R14_abt is then any value, is the MODEL's reading of R712 and R785 (log 28); that a load of R15 with the address
behind the instruction counts as no load there, so that the five addresses are added, is its choice (log 25). -/
def Obligations.DebugState : Prop :=
  ∀ (s : State) (rest : List Move), s.dbg.inDebug = true →
    (s.schedule = [] → step s = .next s) ∧
    (∀ id ws, s.schedule = .debugStep id ws :: rest →
      (Instr.debugLegal (s.scanned id) = false → step s = .refused .notInDebugState) ∧
      (Instr.debugLegal (s.scanned id) = true → userBankHazard (s.scanned id) s = true → step s = .fault .userBankHazard) ∧
      (∀ u, Instr.debugLegal (s.scanned id) = true → userBankHazard (s.scanned id) s = false →
        exec (s.scanned id) { s.begin with schedule := rest, dbg := { s.dbg with ddIn := ws, ddOut := [] } } = .next u →
        step s = .next { u with dbg := { u.dbg with ddIn := [] } })) ∧
    (∀ id, s.schedule = .systemStep id :: rest →
      (s.ice.dbgCtl.getLsbD 3 = true → step s = .refused .singleStepSystemSpeed) ∧
      (s.ice.dbgCtl.getLsbD 3 = false → Instr.isTransfer (s.scanned id) = false → step s = .refused .notAtSystemSpeed) ∧
      (∀ u, s.ice.dbgCtl.getLsbD 3 = false → Instr.isTransfer (s.scanned id) = true →
        userBankHazard (s.scanned id) s = false →
        exec (s.scanned id) { s.begin with schedule := rest, dbg := { s.dbg with sysSpeed := true } } = .next u →
        ∃ t, step s = .next t ∧ t.dbg.sysSpeed = false ∧ t.dbg.sysComp = true ∧ t.dbg.sysspeedBit = true ∧
          t.mem = u.mem ∧ t.bus = u.bus ∧ t.cpsr = u.cpsr ∧ t.dbg.ddOut = [] ∧
          (u.ice.dbgCtl.getLsbD 0 = false → t.dbg.ackFalls = u.dbg.ackFalls + 1) ∧
          (abortedSince s u = false → t.regs = u.regs ∧ (u.pc = s.pc + s.width → t.pc = s.pc + 5#32 * s.width)) ∧
          (abortedSince s u = true → OnlyRegs abtMode [14#4] u t ∧ t.pcOperand = u.pc + 5#32 * u.width))) ∧
    (∀ a size v user (b : Beat) late, s.dbg.sysSpeed = false →
      (s.writeData a size v user b late).2.mem = s.mem ∧
      (s.writeData a size v user b late).2.dbg.ddOut = s.dbg.ddOut ++ [ddCopies size v]) ∧
    (∀ w ws a size user (b : Beat), s.dbg.sysSpeed = false → s.dbg.ddIn = w :: ws →
      (s.readData a size user b).1 = some (lane s.pins.bigend size a w) ∧
      (s.readData a size user b).2.dbg.ddIn = ws) ∧
    (∀ target, s.schedule = .exitDebug target :: rest → ∃ t, step s = .next t ∧ t.dbg.inDebug = false ∧
      t.pc = s.codeAddress target ∧ t.regs = s.regs ∧ t.cpsr = s.cpsr ∧ t.spsr = s.spsr ∧ t.mem = s.mem ∧
      t.pins.irqPulse = false ∧ t.pins.fiqPulse = false ∧ t.dbg.stepArmed = s.ice.dbgCtl.getLsbD 3 ∧ dbgack t = true ∧
      dbgack t.fetchNext.fetchNext = true ∧ dbgack t.filled = s.ice.dbgCtl.getLsbD 0)

/-- The EmbeddedICE registers through scan chain 2: what is written is read back (vector catch but for bit 5), a write to the debug
status or comms control register is ignored, the comms data register passes words both ways and keeps the W and R bits, and writing
a control value clears CHAINOUT; Update-DR of the chain makes the access (10_state.md R58 to R70, 61_debug.md R800). -/
def Obligations.IceRegisters : Prop :=
  ∀ (s : State) (v : Word),
    (∀ a ∈ [8#5, 9#5, 10#5, 11#5, 16#5, 17#5, 18#5, 19#5],
      ((s.iceWrite a v).iceRead a).tap.chain2.extractLsb' 0 32 = v) ∧
    (∀ a ∈ [12#5, 20#5], (((s.iceWrite a v).iceRead a).tap.chain2.extractLsb' 0 9) = v.extractLsb' 0 9) ∧
    (∀ a ∈ [13#5, 21#5], (((s.iceWrite a v).iceRead a).tap.chain2.extractLsb' 0 8) = v.extractLsb' 0 8 &&& 0xF7#8) ∧
    ((s.iceWrite 0#5 v).iceRead 0#5).tap.chain2.extractLsb' 0 4 = v.extractLsb' 0 4 ∧
    (∀ k, k < 8 → k ≠ 5 → ((s.iceWrite 2#5 v).iceRead 2#5).tap.chain2.getLsbD k = v.getLsbD k) ∧
    (s.iceRead 1#5).tap.chain2.extractLsb' 0 5 = debugStatus s ∧
    ((s.iceRead 4#5).tap.chain2.extractLsb' 28 4 = 0b0010#4 ∧ (s.iceRead 4#5).tap.chain2.getLsbD 1 = s.ice.wDbg ∧
      (s.iceRead 4#5).tap.chain2.getLsbD 0 = s.ice.rDbg) ∧
    (s.iceWrite 1#5 v = s ∧ s.iceWrite 4#5 v = s) ∧
    (s.iceWrite 12#5 v).ice.w0.chainOut = false ∧ (s.iceWrite 20#5 v).ice.w1.chainOut = false ∧
    (s.iceWrite 5#5 v).ice.commsRead = v ∧ (s.iceWrite 5#5 v).ice.rBit = true ∧
    (s.iceRead 5#5).tap.chain2.extractLsb' 0 32 = s.ice.commsWrite ∧ (s.iceRead 5#5).ice.wBit = false ∧
    (∀ a, (s.iceRead a).regs = s.regs ∧ (s.iceRead a).cpsr = s.cpsr ∧ (s.iceRead a).mem = s.mem ∧
      (s.iceWrite a v).regs = s.regs ∧ (s.iceWrite a v).cpsr = s.cpsr ∧ (s.iceWrite a v).mem = s.mem) ∧
    (∀ a w, TapInstr.ofCode s.tap.ir = .intest → s.tap.screg = 2#5 →
      (s.tap.chain2 = 1#1 ++ (a ++ w) → s.updateDr = s.iceWrite a w) ∧
      (s.tap.chain2 = 0#1 ++ (a ++ w) → s.updateDr = s.iceRead a))

/-- A watchpoint unit raises its request exactly when it watches the interface, is enabled, and every unmasked bit of address,
data and control agrees (61_debug.md R804, R805, R810). A data access that DEWPT or either unit marks latches the watchpoint, outside
debug state and with DBGEN HIGH (R751); the end of that instruction arms it, and the end of the next one makes it due (R752). The end of
the one instruction that an armed single step lets through makes the entry due (R820). The MODEL's
readings: unit 1 has CHAIN and RANGE LOW (U36), and unit 0 gets unit 1's outputs after unit 1 saw the same access (R806, R808, R809,
log 31); an access at system speed latches none (log 28); one on its way drops a second (log 44). -/
def Obligations.WatchpointMatch : Prop :=
  (∀ (u : Watch) (p : Probe) (ext chain range : Bool),
    Watch.hits u p ext chain range = true ↔
      u.ctlValue.getLsbD 3 = p.data ∧ u.ctlValue.getLsbD 8 = true ∧
      (∀ k, k < 32 → u.addrMask.getLsbD k = false → u.addrValue.getLsbD k = p.addr.getLsbD k) ∧
      (∀ k, k < 32 → u.dataMask.getLsbD k = false → u.dataValue.getLsbD k = p.value.getLsbD k) ∧
      (∀ k, k < 5 → u.ctlMask.getLsbD k = false → u.ctlValue.getLsbD k = p.ctl.getLsbD k) ∧
      (u.ctlMask.getLsbD 5 = false → u.ctlValue.getLsbD 5 = ext) ∧
      (u.ctlMask.getLsbD 6 = false → u.ctlValue.getLsbD 6 = chain) ∧
      (u.ctlMask.getLsbD 7 = false → u.ctlValue.getLsbD 7 = range)) ∧
  (∀ (s : State) (e : BusEvent) (w : Word), s.dbg.watch = .idle →
    let p := dataProbe e.addr w e.size e.write e.trans
    let u1 := (s.accessed e w).ice.w1
    ((s.accessed e w).dbg.watch = .hit ↔ s.pins.dbgen = true ∧ s.dbg.inDebug = false ∧
      (s.pins.dewpt = true ∨ Watch.hits s.ice.w1 p s.pins.extern1 false false = true ∨
        Watch.hits s.ice.w0 p s.pins.extern0 u1.chainOut u1.rangeOut = true))) ∧
  (∀ s u : State, Ready s → userBankHazard s.filled.sampled.fetched s.filled.sampled = false →
    exec s.filled.sampled.fetched s.filled.sampled.begin = .next u → u.pipe.busyWait = false →
    ∃ t, step s = .next t ∧ t.regs = u.regs ∧ t.cpsr = u.cpsr ∧ t.pc = u.pc ∧ t.mem = u.mem ∧
      (u.dbg.watch = .hit → t.dbg.watch = .armed) ∧ (u.dbg.watch = .armed → t.dbg.watch = .due) ∧
      (u.dbg.stepArmed = true → t.dbg.stepDue = true ∧ t.dbg.stepArmed = false))

/-- Vector catch: with DBGEN HIGH and its bit set, the fetch from the vector of an exception just entered carries the mark that
enters debug state, and so does the first fetch after nRESET with bit 0 set (61_debug.md R815). -/
def Obligations.VectorCatch : Prop :=
  ∀ s : State, s.pins.dbgen = true → s.dbg.inDebug = false →
    (∀ (e : Exc) (link : Word), s.ice.vecCatch.getLsbD e.vector = true → (s.raise e link).filled.marked = true) ∧
    (s.inReset = true → s.ice.vecCatch.getLsbD 0 = true → s.releaseReset.filled.marked = true)

/-- The TAP controller: five TCK cycles with TMS HIGH bring it to Test-Logic-Reset with IDCODE and scan chain 3 selected, from every
state of it (61_debug.md R790; the selection on this path is DEDUCED, log 32); SCAN_N selects the chain whose number is shifted in
(R795); INTEST shifts scan chains 1 and 2, least significant bit first; and passes through Run-Test/Idle under INTEST with chain 1,
and under RESTART, run the scanned instructions one behind the other, each DCLK cycle showing the next word stored (R771, R775, R781,
R782, R787). Three clauses are the MODEL's choices (log 33): a pass with SYSSPEED LOW takes back a request for RESTART;
the word scanned in with SYSSPEED HIGH is dropped and never runs, whatever it holds (R781 speaks of a NOP alone); and RESTART leaves
debug state for every held exit instruction, also one whose condition fails (R787 gives only a branch that is taken). -/
def Obligations.TapReset : Prop :=
  ∀ (s : State) (rest : List Move), s.pins.ntrstLow = false →
    (s.schedule = .tck true false :: .tck true false :: .tck true false :: .tck true false :: .tck true false :: rest →
      ∃ t1 t2 t3 t4 t, step s = .next t1 ∧ step t1 = .next t2 ∧ step t2 = .next t3 ∧ step t3 = .next t4 ∧
        step t4 = .next t ∧ t.tap.st = .testLogicReset ∧ TapInstr.ofCode t.tap.ir = .idcode ∧ t.tap.screg = 3#5 ∧
        t.regs = s.regs ∧ t.cpsr = s.cpsr ∧ t.pc = s.pc ∧ t.mem = s.mem ∧ t.schedule = rest) ∧
    (∀ tms tdi, s.schedule = .tck tms tdi :: rest → TapInstr.ofCode s.tap.ir = .scanN →
      (s.tap.st = .captureDr → ∃ t, step s = .next t ∧ t.tap.scShift = 0b10000#5) ∧
      (s.tap.st = .shiftDr → ∃ t, step s = .next t ∧ t.tap.scShift = BitVec.ofBool tdi ++ s.tap.scShift.extractLsb' 1 4) ∧
      (s.tap.st = .exit1Dr → tms = true → ∃ t, step s = .next t ∧ t.tap.st = .updateDr ∧ t.tap.screg = s.tap.scShift)) ∧
    (∀ tms tdi, s.schedule = .tck tms tdi :: rest → TapInstr.ofCode s.tap.ir = .intest → s.tap.st = .shiftDr →
      (s.tap.screg = 1#5 → ∃ t, step s = .next t ∧ t.tap.chain1 = BitVec.ofBool tdi ++ s.tap.chain1.extractLsb' 1 66) ∧
      (s.tap.screg = 2#5 → ∃ t, step s = .next t ∧ t.tap.chain2 = BitVec.ofBool tdi ++ s.tap.chain2.extractLsb' 1 37)) ∧
    (∀ tdi, s.schedule = .tck false tdi :: rest → s.tap.st = .updateDr → s.dbg.inDebug = true →
      let s0 := (s.idled rest).nextWord
      (TapInstr.ofCode s.tap.ir = .intest → s.tap.screg = 1#5 → s.dbg.discard = 0 →
        (s.dbg.pending = none → step s = .next { s0 with dbg := { s0.dbg with pending := some s.tap.idCells } }) ∧
        (∀ p, s.dbg.pending = some p → s.tap.sysspeedCell = true →
          step s = .next { s0 with dbg := { s0.dbg with restart := true, scans := s0.dbg.scans + 1 } }) ∧
        (∀ p u, s.dbg.pending = some p → s.tap.sysspeedCell = false → s.needs (s.scanned p) = 0 →
          s0.debugSpeedStep p = .next u → ∃ t, step s = .next t ∧ t.regs = u.regs ∧ t.cpsr = u.cpsr ∧ t.pc = u.pc ∧
            t.mem = u.mem ∧ t.dbg.ddOut = u.dbg.ddOut ∧ t.dbg.restart = false ∧
            (bitT u.cpsr = bitT s.cpsr → t.dbg.pending = some s.tap.idCells)))) ∧
    (∀ tdi p u, s.schedule = .tck false tdi :: rest → s.tap.st = .updateIr → s.dbg.inDebug = true →
      TapInstr.ofCode s.tap.ir = .restart → s.dbg.restart = true → s.dbg.pending = some p →
      Instr.isTransfer (s.scanned p) = false → Instr.isExit (s.scanned p) = true →
      (s.idled rest).restarting.debugSpeedStep p = .next u →
      ∃ t, step s = .next t ∧ t.dbg.inDebug = false ∧ t.regs = u.regs ∧ t.cpsr = u.cpsr ∧ t.mem = u.mem ∧
        t.pc = u.codeAddress u.pc)

/-! ## Stops of the machine -/

/-- The hazards the spec leaves without one outcome stop the machine by name: an instruction fetched before a store wrote it, a
run past the top of memory, a banked register named right after LDM (2) or STM (2), R14 of the mode that a SWI, an UNDEFINED row or a
coprocessor instruction answered ABSENT enters being one (20_memory.md R150, 10_state.md R50, 70_reset_and_hazards.md R921; log 15 to 17). -/
def Obligations.HazardStops : Prop :=
  ∀ s : State, s.schedule = [] → s.inReset = false → s.dbg.inDebug = false → s.cutOff = false →
    (s.pipe.wrapped = true → step s = .fault .ranPastTop) ∧
    (Quiet s → s.filled.fetchAborts = false → s.filled.marked = false →
      (s.pc ∈ s.pipe.stale → step s = .fault .staleFetch) ∧
      (s.pc ∉ s.pipe.stale → s.pipe.userBank = true → passes s.filled.fetched s = true →
        let i := s.filled.fetched
        ((∃ r ∈ Instr.named i, banked s.mode r = true) ∨ (∃ c n, i = .swi c n) ∨
          (∃ c b, i = .undArith c b ∨ i = .undLsA c b ∨ i = .undLsB c b ∨ i = .undCtlReg c b ∨ i = .undCtlImm c b ∨
            i = .undSpace c b ∨ i = .undCop c b) ∨
          (offered i = true ∧ (s.cop.replies = [] ∨ s.cop.replies.head? = some .absent))) →
        step s = .fault .userBankHazard))
end

