-- ==== Sys2Proof/Laws/Flags.lean ====
section
/-!
SUPPORT. The status register bit by bit, and the sixteen operations against their meaning in unbounded integers
(40_arm_data_processing.md R253, R262).
-/

namespace Sys2Proof.Machine

@[simp] theorem bit_getElem_zero (b : Bool) : (bit b)[0] = b := by cases b <;> rfl
@[simp] theorem bit_getLsbD_zero (b : Bool) : (bit b).getLsbD 0 = b := by cases b <;> rfl

/-- The bits of a status register with new flags. -/
theorem withNZCV_getLsbD (p : Word) (n z c v : Bool) (k : Nat) : (withNZCV p n z c v).getLsbD k =
    if k < 28 then p.getLsbD k
    else if k = 28 then v else if k = 29 then c else if k = 30 then z else if k = 31 then n else false := by
  unfold withNZCV
  rw [BitVec.getLsbD_append]
  by_cases h : k < 28
  · simp [h]
  · rw [if_neg h, if_neg h, BitVec.getLsbD_append, BitVec.getLsbD_append, BitVec.getLsbD_append]
    obtain ⟨j, rfl⟩ : ∃ j, k = 28 + j := ⟨k - 28, by omega⟩
    match j with
    | 0 => simp
    | 1 => simp
    | 2 => simp
    | 3 => simp
    | j + 4 =>
      simp [show ¬ (28 + (j + 4) = 29) by omega, show ¬ (28 + (j + 4) = 30) by omega,
        show ¬ (28 + (j + 4) = 31) by omega]

section
variable (p : Word) (n z c v : Bool)
@[simp] theorem withNZCV_flagN : flagN (withNZCV p n z c v) = n := by rw [flagN, withNZCV_getLsbD]; rfl
@[simp] theorem withNZCV_flagZ : flagZ (withNZCV p n z c v) = z := by rw [flagZ, withNZCV_getLsbD]; rfl
@[simp] theorem withNZCV_flagC : flagC (withNZCV p n z c v) = c := by rw [flagC, withNZCV_getLsbD]; rfl
@[simp] theorem withNZCV_flagV : flagV (withNZCV p n z c v) = v := by rw [flagV, withNZCV_getLsbD]; rfl
@[simp] theorem withNZCV_bitT : bitT (withNZCV p n z c v) = bitT p := by rw [bitT, withNZCV_getLsbD]; rfl
@[simp] theorem withNZCV_maskI : maskI (withNZCV p n z c v) = maskI p := by rw [maskI, withNZCV_getLsbD]; rfl
@[simp] theorem withNZCV_maskF : maskF (withNZCV p n z c v) = maskF p := by rw [maskF, withNZCV_getLsbD]; rfl
theorem withNZCV_sameControl : SameControl p (withNZCV p n z c v) := BitVec.extractLsb'_append_eq_right
@[simp] theorem withNZCV_modeOf : modeOf (withNZCV p n z c v) = modeOf p := by
  unfold modeOf
  apply BitVec.eq_of_getLsbD_eq
  intro i hi
  rw [BitVec.getLsbD_extractLsb', BitVec.getLsbD_extractLsb', withNZCV_getLsbD, if_pos (by omega)]
end

@[simp] theorem flagsOf_bitT (p : Word) (o : AluOut) : bitT (flagsOf p o) = bitT p := withNZCV_bitT ..
@[simp] theorem flagsOf_modeOf (p : Word) (o : AluOut) : modeOf (flagsOf p o) = modeOf p := withNZCV_modeOf ..
@[simp] theorem flagsOf_maskI (p : Word) (o : AluOut) : maskI (flagsOf p o) = maskI p := withNZCV_maskI ..
@[simp] theorem flagsOf_maskF (p : Word) (o : AluOut) : maskF (flagsOf p o) = maskF p := withNZCV_maskF ..

/-! ## Sums and differences -/

theorem toInt_eq_toNat_sub (x : Word) : x.toInt = (x.toNat : Int) - (if x.msb then 2 ^ 32 else 0) := by
  rw [BitVec.toInt_eq_msb_cond]
  split <;> simp_all

theorem msb_iff_le (x : Word) : x.msb = true ↔ 2 ^ 31 ≤ x.toNat := by
  rw [BitVec.msb_eq_decide]; simp

theorem addc_toNat (x y : Word) (c : Bool) : (addc x y c).toNat = (x.toNat + y.toNat + c.toNat) % 2 ^ 32 := by
  unfold addc
  cases c <;> simp [BitVec.toNat_add]

theorem subb_toNat (x y : Word) (b : Bool) : (subb x y b).toNat = (2 ^ 33 + x.toNat - y.toNat - b.toNat) % 2 ^ 32 := by
  have hx := x.isLt
  have hy := y.isLt
  unfold subb
  cases b <;> simp only [Bool.toNat_false, Bool.toNat_true, BitVec.toNat_sub, BitVec.toNat_ofNat] <;> omega

/-- Addition in integers: the result, the carry and the signed overflow. -/
theorem addition_spec (x y : Word) (c : Bool) :
    addc x y c = BitVec.ofInt 32 ((x.toNat : Int) + y.toNat + c.toNat) ∧
      carryFrom x y c = decide ((2 : Int) ^ 32 ≤ (x.toNat : Int) + y.toNat + c.toNat) ∧
      overflowAdd x y c = decide ((addc x y c).toInt ≠ x.toInt + y.toInt + c.toNat) := by
  have hx := x.isLt
  have hy := y.isLt
  have hc : c.toNat ≤ 1 := Bool.toNat_le c
  have hs := addc_toNat x y c
  refine ⟨?_, ?_, ?_⟩
  · apply BitVec.eq_of_toNat_eq
    rw [hs, BitVec.toNat_ofInt]
    omega
  · rw [carryFrom]
    apply decide_eq_decide.mpr
    omega
  · rw [toInt_eq_toNat_sub (addc x y c), toInt_eq_toNat_sub x, toInt_eq_toNat_sub y, hs, overflowAdd]
    have m1 := msb_iff_le x
    have m2 := msb_iff_le y
    have m3 := msb_iff_le (addc x y c)
    rw [hs] at m3
    cases h1 : x.msb <;> cases h2 : y.msb <;> cases h3 : (addc x y c).msb <;>
      simp only [h1, h2, h3, true_iff, false_iff, Bool.false_eq_true, not_le] at m1 m2 m3 <;>
      simp <;> omega

/-- Subtraction in integers: the result, the borrow and the signed overflow. -/
theorem subtraction_spec (x y : Word) (b : Bool) :
    subb x y b = BitVec.ofInt 32 ((x.toNat : Int) - y.toNat - b.toNat) ∧
      (!borrowFrom x y b) = decide ((0 : Int) ≤ (x.toNat : Int) - y.toNat - b.toNat) ∧
      overflowSub x y b = decide ((subb x y b).toInt ≠ x.toInt - y.toInt - b.toNat) := by
  have hx := x.isLt
  have hy := y.isLt
  have hc : b.toNat ≤ 1 := Bool.toNat_le b
  have hs := subb_toNat x y b
  refine ⟨?_, ?_, ?_⟩
  · apply BitVec.eq_of_toNat_eq
    rw [hs, BitVec.toNat_ofInt]
    omega
  · rw [borrowFrom, ← decide_not]
    apply decide_eq_decide.mpr
    omega
  · rw [toInt_eq_toNat_sub (subb x y b), toInt_eq_toNat_sub x, toInt_eq_toNat_sub y, hs, overflowSub]
    have m1 := msb_iff_le x
    have m2 := msb_iff_le y
    have m3 := msb_iff_le (subb x y b)
    rw [hs] at m3
    cases h1 : x.msb <;> cases h2 : y.msb <;> cases h3 : (subb x y b).msb <;>
      simp only [h1, h2, h3, true_iff, false_iff, Bool.false_eq_true, not_le] at m1 m2 m3 <;>
      simp <;> omega

theorem addition_flags {x y : Word} {c : Bool} {u e : Int} (hu : u = (x.toNat : Int) + y.toNat + c.toNat)
    (he : e = x.toInt + y.toInt + c.toNat) :
    (addition x y c).c = decide (2 ^ 32 ≤ u) ∧ (addition x y c).v = decide ((addition x y c).res.toInt ≠ e) := by
  subst hu he
  exact (addition_spec x y c).2

theorem subtraction_flags {x y : Word} {b : Bool} {u e : Int} (hu : u = (x.toNat : Int) - y.toNat - b.toNat)
    (he : e = x.toInt - y.toInt - b.toNat) :
    (subtraction x y b).c = decide (0 ≤ u) ∧ (subtraction x y b).v = decide ((subtraction x y b).res.toInt ≠ e) := by
  subst hu he
  exact (subtraction_spec x y b).2

/-! ## The sixteen operations -/

/-- Every operation's result is the one its rule gives. -/
theorem alu_result (op : DpOp) (p a b : Word) (sh : Bool) : DpResult op (flagC p) a b (alu op p a b sh).res := by
  cases op <;> simp only [DpResult, DpOp.exact, DpOp.logic, alu, logical, addition, subtraction] <;>
    first
    | rfl
    | (rw [(addition_spec _ _ _).1]; cases flagC p <;> simp)
    | (rw [(subtraction_spec _ _ _).1]; cases flagC p <;> simp)

/-- Every operation's flags are those of its row of R253. -/
theorem alu_flags (op : DpOp) (p a b : Word) (sh : Bool) :
    DpFlags op p a b sh (alu op p a b sh).res (flagsOf p (alu op p a b sh)) := by
  refine ⟨withNZCV_sameControl .., ?_, ?_, ?_⟩
  · rw [flagsOf, withNZCV_flagN, BitVec.msb_eq_getLsbD_last]
  · rw [flagsOf, withNZCV_flagZ]; exact beq_eq_decide _ _
  · simp only [flagsOf, withNZCV_flagC, withNZCV_flagV]
    cases op with
    | and | eor | tst | teq | orr | mov | bic | mvn => exact ⟨rfl, rfl⟩
    | sub | cmp => exact subtraction_flags (by simp) (by simp)
    | rsb => exact subtraction_flags (by simp) (by simp)
    | add | cmn => exact addition_flags (by simp) (by simp)
    | adc => exact addition_flags (by cases flagC p <;> simp) (by cases flagC p <;> simp)
    | sbc => exact subtraction_flags (by cases flagC p <;> simp) (by cases flagC p <;> simp)
    | rsc => exact subtraction_flags (by cases flagC p <;> simp) (by cases flagC p <;> simp)

end Sys2Proof.Machine
end

