-- ==== Sys2Proof/Laws/Memory.lean ====
section
/-!
SUPPORT. The laws of byte memory: a read after a write, reads elsewhere, and that every operation keeps the canonical form.
-/

namespace Sys2Proof.Machine

@[simp] theorem Memory.read_nil (a : Nat) : Memory.read [] a = unlistedByte := rfl

theorem Memory.wfFrom_mono {lo lo' : Nat} (h : lo' ≤ lo) : ∀ {m : List Host.Cell}, Memory.wfFrom lo m = true →
    Memory.wfFrom lo' m = true
  | [], _ => rfl
  | (k, b) :: rest, hm => by
    simp only [Memory.wfFrom, Bool.and_eq_true, decide_eq_true_eq] at hm ⊢
    exact ⟨⟨⟨by omega, hm.1.1.2⟩, hm.1.2⟩, hm.2⟩

/-- Below the first address of a canonical list nothing is listed. -/
theorem Memory.read_below {lo a : Nat} (h : a < lo) : ∀ {m : List Host.Cell}, Memory.wfFrom lo m = true →
    Memory.read m a = unlistedByte
  | [], _ => rfl
  | (k, b) :: rest, hm => by
    simp only [Memory.wfFrom, Bool.and_eq_true, decide_eq_true_eq] at hm
    have hk : k ≠ a := by omega
    simp only [Memory.read, if_neg hk]
    exact Memory.read_below (by omega) hm.2

theorem Memory.write_wfFrom {lo a : Nat} {v : Byte} (h : a < 2 ^ 32) : ∀ {m : List Host.Cell} (_ : lo ≤ a),
    Memory.wfFrom lo m = true → Memory.wfFrom lo (Memory.write m a v) = true
  | [], hl, _ => by
    unfold Memory.write; split
    · rfl
    · simp only [Memory.wfFrom, Bool.and_eq_true, decide_eq_true_eq, bne_iff_ne, ne_eq, and_true]
      exact ⟨⟨hl, h⟩, by assumption⟩
  | (k, b) :: rest, hl, hm => by
    have hm' := hm
    simp only [Memory.wfFrom, Bool.and_eq_true, decide_eq_true_eq] at hm'
    obtain ⟨⟨⟨h1, h2⟩, h3⟩, h4⟩ := hm'
    unfold Memory.write; split
    · split
      · exact hm
      · simp only [Memory.wfFrom, Bool.and_eq_true, decide_eq_true_eq, bne_iff_ne, ne_eq]
        exact ⟨⟨⟨hl, h⟩, by assumption⟩, ⟨⟨by omega, h2⟩, by simpa using h3⟩, h4⟩
    · split
      · split
        · exact Memory.wfFrom_mono (by omega) h4
        · simp only [Memory.wfFrom, Bool.and_eq_true, decide_eq_true_eq, bne_iff_ne, ne_eq]
          exact ⟨⟨⟨hl, h⟩, by assumption⟩, by subst_vars; exact h4⟩
      · simp only [Memory.wfFrom, Bool.and_eq_true, decide_eq_true_eq]
        exact ⟨⟨⟨h1, h2⟩, h3⟩, Memory.write_wfFrom h (by omega) h4⟩

/-- A write keeps the canonical form. -/
theorem Memory.write_wf {m : List Host.Cell} {a : Nat} (v : Byte) (h : a < 2 ^ 32) (hm : Memory.wf m = true) :
    Memory.wf (Memory.write m a v) = true := Memory.write_wfFrom h (Nat.zero_le a) hm

/-- What a byte of canonical memory reads as after a write. -/
theorem Memory.read_writeFrom {lo a : Nat} {v : Byte} : ∀ {m : List Host.Cell}, Memory.wfFrom lo m = true → ∀ x : Nat,
    Memory.read (Memory.write m a v) x = if x = a then v else Memory.read m x
  | [], _, x => by
    unfold Memory.write; split
    · simp only [Memory.read]; split <;> simp_all
    · simp only [Memory.read, eq_comm]
  | (k, b) :: rest, hm, x => by
    have hm' := hm
    simp only [Memory.wfFrom, Bool.and_eq_true, decide_eq_true_eq] at hm'
    obtain ⟨⟨⟨h1, h2⟩, h3⟩, h4⟩ := hm'
    unfold Memory.write; split
    · rename_i hlt
      split
      · split
        · subst_vars
          exact Memory.read_below (lo := k) hlt (by
            simp only [Memory.wfFrom, Bool.and_eq_true, decide_eq_true_eq]
            exact ⟨⟨⟨Nat.le_refl _, h2⟩, h3⟩, h4⟩)
        · rfl
      · simp only [Memory.read, eq_comm]
    · split
      · subst_vars
        split
        · by_cases hx : x = k
          · subst_vars; simp [Memory.read_below (Nat.lt_succ_self _) h4]
          · rw [if_neg hx, Memory.read, if_neg (by omega)]
        · simp only [Memory.read, eq_comm (a := x)]
          split <;> rfl
      · simp only [Memory.read]
        rw [Memory.read_writeFrom h4 x]
        split
        · split
          · omega
          · rfl
        · rfl

/-- A read after a write to canonical memory. -/
theorem Memory.read_write {m : List Host.Cell} (hm : Memory.wf m = true) (a : Nat) (v : Byte) (x : Nat) :
    Memory.read (Memory.write m a v) x = if x = a then v else Memory.read m x := Memory.read_writeFrom hm x

/-- A write elsewhere leaves a byte alone, in any memory. -/
theorem Memory.read_write_ne {a x : Nat} (v : Byte) (h : x ≠ a) : ∀ m : List Host.Cell,
    Memory.read (Memory.write m a v) x = Memory.read m x
  | [] => by unfold Memory.write; split <;> simp [Memory.read, Ne.symm h]
  | (k, b) :: rest => by
    unfold Memory.write
    split
    · split <;> simp [Memory.read, Ne.symm h]
    · split
      · subst_vars
        split <;> simp [Memory.read, Ne.symm h]
      · simp only [Memory.read, Memory.read_write_ne v h rest]

/-- Every address that `byteAddr` gives exists. -/
theorem byteAddr_lt (a : Word) (i : Nat) : byteAddr a i < 2 ^ 32 := (a + BitVec.ofNat 32 i).isLt

/-- Every byte of a store lies in the address space. -/
theorem storeBytes_lt {big : Bool} {size : Size} {a v : Word} : ∀ x ∈ storeBytes big size a v, x.1 < 2 ^ 32 := by
  intro x hx
  cases size <;> simp only [storeBytes, List.mem_cons, List.not_mem_nil, or_false] at hx
  · subst hx; exact byteAddr_lt _ _
  · rcases hx with h | h <;> subst h <;> exact byteAddr_lt _ _
  · rcases hx with h | h | h | h <;> subst h <;> exact byteAddr_lt _ _

/-- A list of writes keeps the canonical form. -/
theorem Memory.writeAll_wf : ∀ {bs : List (Nat × Byte)} {m : List Host.Cell}, (∀ x ∈ bs, x.1 < 2 ^ 32) →
    Memory.wf m = true → Memory.wf (Memory.writeAll m bs) = true
  | [], _, _, hm => hm
  | y :: rest, _, hb, hm => Memory.writeAll_wf (bs := rest) (fun x hx => hb x (List.mem_cons_of_mem y hx))
      (Memory.write_wf _ (hb y List.mem_cons_self) hm)

/-- A list of writes leaves every byte alone that it does not name. -/
theorem Memory.read_writeAll_ne {x : Nat} : ∀ {bs : List (Nat × Byte)} (m : List Host.Cell), (∀ y ∈ bs, y.1 ≠ x) →
    Memory.read (Memory.writeAll m bs) x = Memory.read m x
  | [], _, _ => rfl
  | (a, v) :: rest, m, h => by
    rw [Memory.writeAll, Memory.read_writeAll_ne _ fun y hy => h y (List.mem_cons_of_mem _ hy)]
    exact Memory.read_write_ne v (fun e => h (a, v) List.mem_cons_self e.symm) m

/-- Two lists of writes, one after the other. -/
theorem Memory.writeAll_append : ∀ (m : List Host.Cell) (xs ys : List (Nat × Byte)),
    Memory.writeAll m (xs ++ ys) = Memory.writeAll (Memory.writeAll m xs) ys
  | _, [], _ => rfl
  | m, (a, v) :: rest, ys => Memory.writeAll_append (Memory.write m a v) rest ys

/-- The memories of the reset state are canonical. -/
theorem reset_memory_wf : Memory.wf State.reset.mem = true ∧ Memory.wf State.reset.imem = true := ⟨rfl, rfl⟩

/-- A store keeps the canonical form of memory. -/
theorem State.storeMem_wf {s : State} {big : Bool} {size : Size} {a v : Word} (h : Memory.wf s.mem = true) :
    Memory.wf (s.storeMem (storeBytes big size a v)).mem = true := Memory.writeAll_wf storeBytes_lt h

/-- Another bus master's write keeps the canonical form of memory. -/
theorem State.busWrite_wf {s : State} {a : Word} {v : Byte} (h : Memory.wf s.mem = true) :
    Memory.wf (s.busWrite a v).mem = true := Memory.write_wf v a.isLt h

/-- So does a write to the store behind the instruction interface. -/
theorem State.codeWrite_wf {s : State} {a : Word} {v : Byte} (h : Memory.wf s.imem = true) :
    Memory.wf (s.codeWrite a v).imem = true := Memory.write_wf v a.isLt h

theorem placed_lt (pc : Word) (bs : List Byte) :
    ∀ x ∈ bs.zipIdx.map (fun x => (byteAddr pc x.2, x.1)), x.1 < 2 ^ 32 := by
  intro x hx
  obtain ⟨y, -, rfl⟩ := List.mem_map.mp hx
  exact byteAddr_lt _ _

/-- Placing code keeps the canonical form of both memories. -/
theorem State.placeCode_wf {s : State} {bs : List Byte} (h : Memory.wf s.mem = true) (h' : Memory.wf s.imem = true) :
    Memory.wf (s.placeCode bs).mem = true ∧ Memory.wf (s.placeCode bs).imem = true := by
  unfold State.placeCode
  dsimp only
  split
  · exact ⟨h, Memory.writeAll_wf (placed_lt _ _) h'⟩
  · exact ⟨Memory.writeAll_wf (placed_lt _ _) h, h'⟩

end Sys2Proof.Machine
end

