-- ==== Sys2Proof/Laws/State.lean ====
section
/-!
SUPPORT. One lemma per field and per update of the state: what each named operation leaves alone, and the plain value where
it writes one. Later proofs cite these and unfold no record update.
-/

namespace Sys2Proof.Machine

variable (s : State)

/-! ### setBankReg -/

@[simp] theorem State.setBankReg_pc (m : BitVec 5) (r : Reg) (v : Word) : (s.setBankReg m r v).pc = s.pc := by unfold State.setBankReg; split <;> rfl
@[simp] theorem State.setBankReg_cpsr (m : BitVec 5) (r : Reg) (v : Word) : (s.setBankReg m r v).cpsr = s.cpsr := by unfold State.setBankReg; split <;> rfl
@[simp] theorem State.setBankReg_spsr (m : BitVec 5) (r : Reg) (v : Word) : (s.setBankReg m r v).spsr = s.spsr := by unfold State.setBankReg; split <;> rfl
@[simp] theorem State.setBankReg_mem (m : BitVec 5) (r : Reg) (v : Word) : (s.setBankReg m r v).mem = s.mem := by unfold State.setBankReg; split <;> rfl
@[simp] theorem State.setBankReg_imem (m : BitVec 5) (r : Reg) (v : Word) : (s.setBankReg m r v).imem = s.imem := by unfold State.setBankReg; split <;> rfl
@[simp] theorem State.setBankReg_pins (m : BitVec 5) (r : Reg) (v : Word) : (s.setBankReg m r v).pins = s.pins := by unfold State.setBankReg; split <;> rfl
@[simp] theorem State.setBankReg_sys (m : BitVec 5) (r : Reg) (v : Word) : (s.setBankReg m r v).sys = s.sys := by unfold State.setBankReg; split <;> rfl
@[simp] theorem State.setBankReg_cop (m : BitVec 5) (r : Reg) (v : Word) : (s.setBankReg m r v).cop = s.cop := by unfold State.setBankReg; split <;> rfl
@[simp] theorem State.setBankReg_bus (m : BitVec 5) (r : Reg) (v : Word) : (s.setBankReg m r v).bus = s.bus := by unfold State.setBankReg; split <;> rfl
@[simp] theorem State.setBankReg_port (m : BitVec 5) (r : Reg) (v : Word) : (s.setBankReg m r v).port = s.port := by unfold State.setBankReg; split <;> rfl
@[simp] theorem State.setBankReg_pipe (m : BitVec 5) (r : Reg) (v : Word) : (s.setBankReg m r v).pipe = s.pipe := by unfold State.setBankReg; split <;> rfl
@[simp] theorem State.setBankReg_ice (m : BitVec 5) (r : Reg) (v : Word) : (s.setBankReg m r v).ice = s.ice := by unfold State.setBankReg; split <;> rfl
@[simp] theorem State.setBankReg_tap (m : BitVec 5) (r : Reg) (v : Word) : (s.setBankReg m r v).tap = s.tap := by unfold State.setBankReg; split <;> rfl
@[simp] theorem State.setBankReg_dbg (m : BitVec 5) (r : Reg) (v : Word) : (s.setBankReg m r v).dbg = s.dbg := by unfold State.setBankReg; split <;> rfl
@[simp] theorem State.setBankReg_inReset (m : BitVec 5) (r : Reg) (v : Word) : (s.setBankReg m r v).inReset = s.inReset := by unfold State.setBankReg; split <;> rfl
@[simp] theorem State.setBankReg_instrExec (m : BitVec 5) (r : Reg) (v : Word) : (s.setBankReg m r v).instrExec = s.instrExec := by unfold State.setBankReg; split <;> rfl
@[simp] theorem State.setBankReg_pass (m : BitVec 5) (r : Reg) (v : Word) : (s.setBankReg m r v).pass = s.pass := by unfold State.setBankReg; split <;> rfl
@[simp] theorem State.setBankReg_lateCancel (m : BitVec 5) (r : Reg) (v : Word) : (s.setBankReg m r v).lateCancel = s.lateCancel := by unfold State.setBankReg; split <;> rfl
@[simp] theorem State.setBankReg_draws (m : BitVec 5) (r : Reg) (v : Word) : (s.setBankReg m r v).draws = s.draws := by unfold State.setBankReg; split <;> rfl
@[simp] theorem State.setBankReg_schedule (m : BitVec 5) (r : Reg) (v : Word) : (s.setBankReg m r v).schedule = s.schedule := by unfold State.setBankReg; split <;> rfl

/-! ### setReg -/

@[simp] theorem State.setReg_pc (r : Reg) (v : Word) : (s.setReg r v).pc = s.pc := by simp [State.setReg]
@[simp] theorem State.setReg_cpsr (r : Reg) (v : Word) : (s.setReg r v).cpsr = s.cpsr := by simp [State.setReg]
@[simp] theorem State.setReg_spsr (r : Reg) (v : Word) : (s.setReg r v).spsr = s.spsr := by simp [State.setReg]
@[simp] theorem State.setReg_mem (r : Reg) (v : Word) : (s.setReg r v).mem = s.mem := by simp [State.setReg]
@[simp] theorem State.setReg_imem (r : Reg) (v : Word) : (s.setReg r v).imem = s.imem := by simp [State.setReg]
@[simp] theorem State.setReg_pins (r : Reg) (v : Word) : (s.setReg r v).pins = s.pins := by simp [State.setReg]
@[simp] theorem State.setReg_sys (r : Reg) (v : Word) : (s.setReg r v).sys = s.sys := by simp [State.setReg]
@[simp] theorem State.setReg_cop (r : Reg) (v : Word) : (s.setReg r v).cop = s.cop := by simp [State.setReg]
@[simp] theorem State.setReg_bus (r : Reg) (v : Word) : (s.setReg r v).bus = s.bus := by simp [State.setReg]
@[simp] theorem State.setReg_port (r : Reg) (v : Word) : (s.setReg r v).port = s.port := by simp [State.setReg]
@[simp] theorem State.setReg_pipe (r : Reg) (v : Word) : (s.setReg r v).pipe = s.pipe := by simp [State.setReg]
@[simp] theorem State.setReg_ice (r : Reg) (v : Word) : (s.setReg r v).ice = s.ice := by simp [State.setReg]
@[simp] theorem State.setReg_tap (r : Reg) (v : Word) : (s.setReg r v).tap = s.tap := by simp [State.setReg]
@[simp] theorem State.setReg_dbg (r : Reg) (v : Word) : (s.setReg r v).dbg = s.dbg := by simp [State.setReg]
@[simp] theorem State.setReg_inReset (r : Reg) (v : Word) : (s.setReg r v).inReset = s.inReset := by simp [State.setReg]
@[simp] theorem State.setReg_instrExec (r : Reg) (v : Word) : (s.setReg r v).instrExec = s.instrExec := by simp [State.setReg]
@[simp] theorem State.setReg_pass (r : Reg) (v : Word) : (s.setReg r v).pass = s.pass := by simp [State.setReg]
@[simp] theorem State.setReg_lateCancel (r : Reg) (v : Word) : (s.setReg r v).lateCancel = s.lateCancel := by simp [State.setReg]
@[simp] theorem State.setReg_draws (r : Reg) (v : Word) : (s.setReg r v).draws = s.draws := by simp [State.setReg]
@[simp] theorem State.setReg_schedule (r : Reg) (v : Word) : (s.setReg r v).schedule = s.schedule := by simp [State.setReg]

/-! ### setCpsr -/

@[simp] theorem State.setCpsr_regs (p : Word) : (s.setCpsr p).regs = s.regs := rfl
@[simp] theorem State.setCpsr_pc (p : Word) : (s.setCpsr p).pc = s.pc := rfl
@[simp] theorem State.setCpsr_cpsr (p : Word) : (s.setCpsr p).cpsr = p := rfl
@[simp] theorem State.setCpsr_spsr (p : Word) : (s.setCpsr p).spsr = s.spsr := rfl
@[simp] theorem State.setCpsr_mem (p : Word) : (s.setCpsr p).mem = s.mem := rfl
@[simp] theorem State.setCpsr_imem (p : Word) : (s.setCpsr p).imem = s.imem := rfl
@[simp] theorem State.setCpsr_pins (p : Word) : (s.setCpsr p).pins = s.pins := rfl
@[simp] theorem State.setCpsr_sys (p : Word) : (s.setCpsr p).sys = s.sys := rfl
@[simp] theorem State.setCpsr_cop (p : Word) : (s.setCpsr p).cop = s.cop := rfl
@[simp] theorem State.setCpsr_bus (p : Word) : (s.setCpsr p).bus = s.bus := rfl
@[simp] theorem State.setCpsr_port (p : Word) : (s.setCpsr p).port = s.port := rfl
@[simp] theorem State.setCpsr_pipe (p : Word) : (s.setCpsr p).pipe = s.pipe := rfl
@[simp] theorem State.setCpsr_ice (p : Word) : (s.setCpsr p).ice = s.ice := rfl
@[simp] theorem State.setCpsr_tap (p : Word) : (s.setCpsr p).tap = s.tap := rfl
@[simp] theorem State.setCpsr_dbg (p : Word) : (s.setCpsr p).dbg = s.dbg := rfl
@[simp] theorem State.setCpsr_inReset (p : Word) : (s.setCpsr p).inReset = s.inReset := rfl
@[simp] theorem State.setCpsr_instrExec (p : Word) : (s.setCpsr p).instrExec = s.instrExec := rfl
@[simp] theorem State.setCpsr_pass (p : Word) : (s.setCpsr p).pass = s.pass := rfl
@[simp] theorem State.setCpsr_lateCancel (p : Word) : (s.setCpsr p).lateCancel = s.lateCancel := rfl
@[simp] theorem State.setCpsr_wrote (p : Word) : (s.setCpsr p).wrote = s.wrote := rfl
@[simp] theorem State.setCpsr_draws (p : Word) : (s.setCpsr p).draws = s.draws := rfl
@[simp] theorem State.setCpsr_schedule (p : Word) : (s.setCpsr p).schedule = s.schedule := rfl

/-! ### setSpsr -/

@[simp] theorem State.setSpsr_regs (m : BitVec 5) (p : Word) : (s.setSpsr m p).regs = s.regs := by unfold State.setSpsr; split <;> rfl
@[simp] theorem State.setSpsr_pc (m : BitVec 5) (p : Word) : (s.setSpsr m p).pc = s.pc := by unfold State.setSpsr; split <;> rfl
@[simp] theorem State.setSpsr_cpsr (m : BitVec 5) (p : Word) : (s.setSpsr m p).cpsr = s.cpsr := by unfold State.setSpsr; split <;> rfl
@[simp] theorem State.setSpsr_mem (m : BitVec 5) (p : Word) : (s.setSpsr m p).mem = s.mem := by unfold State.setSpsr; split <;> rfl
@[simp] theorem State.setSpsr_imem (m : BitVec 5) (p : Word) : (s.setSpsr m p).imem = s.imem := by unfold State.setSpsr; split <;> rfl
@[simp] theorem State.setSpsr_pins (m : BitVec 5) (p : Word) : (s.setSpsr m p).pins = s.pins := by unfold State.setSpsr; split <;> rfl
@[simp] theorem State.setSpsr_sys (m : BitVec 5) (p : Word) : (s.setSpsr m p).sys = s.sys := by unfold State.setSpsr; split <;> rfl
@[simp] theorem State.setSpsr_cop (m : BitVec 5) (p : Word) : (s.setSpsr m p).cop = s.cop := by unfold State.setSpsr; split <;> rfl
@[simp] theorem State.setSpsr_bus (m : BitVec 5) (p : Word) : (s.setSpsr m p).bus = s.bus := by unfold State.setSpsr; split <;> rfl
@[simp] theorem State.setSpsr_port (m : BitVec 5) (p : Word) : (s.setSpsr m p).port = s.port := by unfold State.setSpsr; split <;> rfl
@[simp] theorem State.setSpsr_pipe (m : BitVec 5) (p : Word) : (s.setSpsr m p).pipe = s.pipe := by unfold State.setSpsr; split <;> rfl
@[simp] theorem State.setSpsr_ice (m : BitVec 5) (p : Word) : (s.setSpsr m p).ice = s.ice := by unfold State.setSpsr; split <;> rfl
@[simp] theorem State.setSpsr_tap (m : BitVec 5) (p : Word) : (s.setSpsr m p).tap = s.tap := by unfold State.setSpsr; split <;> rfl
@[simp] theorem State.setSpsr_dbg (m : BitVec 5) (p : Word) : (s.setSpsr m p).dbg = s.dbg := by unfold State.setSpsr; split <;> rfl
@[simp] theorem State.setSpsr_inReset (m : BitVec 5) (p : Word) : (s.setSpsr m p).inReset = s.inReset := by unfold State.setSpsr; split <;> rfl
@[simp] theorem State.setSpsr_instrExec (m : BitVec 5) (p : Word) : (s.setSpsr m p).instrExec = s.instrExec := by unfold State.setSpsr; split <;> rfl
@[simp] theorem State.setSpsr_pass (m : BitVec 5) (p : Word) : (s.setSpsr m p).pass = s.pass := by unfold State.setSpsr; split <;> rfl
@[simp] theorem State.setSpsr_lateCancel (m : BitVec 5) (p : Word) : (s.setSpsr m p).lateCancel = s.lateCancel := by unfold State.setSpsr; split <;> rfl
@[simp] theorem State.setSpsr_draws (m : BitVec 5) (p : Word) : (s.setSpsr m p).draws = s.draws := by unfold State.setSpsr; split <;> rfl
@[simp] theorem State.setSpsr_schedule (m : BitVec 5) (p : Word) : (s.setSpsr m p).schedule = s.schedule := by unfold State.setSpsr; split <;> rfl

/-! ### setFlags -/

@[simp] theorem State.setFlags_regs (o : AluOut) : (s.setFlags o).regs = s.regs := rfl
@[simp] theorem State.setFlags_pc (o : AluOut) : (s.setFlags o).pc = s.pc := rfl
@[simp] theorem State.setFlags_cpsr (o : AluOut) : (s.setFlags o).cpsr = flagsOf s.cpsr o := rfl
@[simp] theorem State.setFlags_spsr (o : AluOut) : (s.setFlags o).spsr = s.spsr := rfl
@[simp] theorem State.setFlags_mem (o : AluOut) : (s.setFlags o).mem = s.mem := rfl
@[simp] theorem State.setFlags_imem (o : AluOut) : (s.setFlags o).imem = s.imem := rfl
@[simp] theorem State.setFlags_pins (o : AluOut) : (s.setFlags o).pins = s.pins := rfl
@[simp] theorem State.setFlags_sys (o : AluOut) : (s.setFlags o).sys = s.sys := rfl
@[simp] theorem State.setFlags_cop (o : AluOut) : (s.setFlags o).cop = s.cop := rfl
@[simp] theorem State.setFlags_bus (o : AluOut) : (s.setFlags o).bus = s.bus := rfl
@[simp] theorem State.setFlags_port (o : AluOut) : (s.setFlags o).port = s.port := rfl
@[simp] theorem State.setFlags_pipe (o : AluOut) : (s.setFlags o).pipe = s.pipe := rfl
@[simp] theorem State.setFlags_ice (o : AluOut) : (s.setFlags o).ice = s.ice := rfl
@[simp] theorem State.setFlags_tap (o : AluOut) : (s.setFlags o).tap = s.tap := rfl
@[simp] theorem State.setFlags_dbg (o : AluOut) : (s.setFlags o).dbg = s.dbg := rfl
@[simp] theorem State.setFlags_inReset (o : AluOut) : (s.setFlags o).inReset = s.inReset := rfl
@[simp] theorem State.setFlags_instrExec (o : AluOut) : (s.setFlags o).instrExec = s.instrExec := rfl
@[simp] theorem State.setFlags_pass (o : AluOut) : (s.setFlags o).pass = s.pass := rfl
@[simp] theorem State.setFlags_lateCancel (o : AluOut) : (s.setFlags o).lateCancel = s.lateCancel := rfl
@[simp] theorem State.setFlags_wrote (o : AluOut) : (s.setFlags o).wrote = s.wrote := rfl
@[simp] theorem State.setFlags_draws (o : AluOut) : (s.setFlags o).draws = s.draws := rfl
@[simp] theorem State.setFlags_schedule (o : AluOut) : (s.setFlags o).schedule = s.schedule := rfl

/-! ### drawn -/

@[simp] theorem State.drawn_regs : s.drawn.regs = s.regs := rfl
@[simp] theorem State.drawn_pc : s.drawn.pc = s.pc := rfl
@[simp] theorem State.drawn_cpsr : s.drawn.cpsr = s.cpsr := rfl
@[simp] theorem State.drawn_spsr : s.drawn.spsr = s.spsr := rfl
@[simp] theorem State.drawn_mem : s.drawn.mem = s.mem := rfl
@[simp] theorem State.drawn_imem : s.drawn.imem = s.imem := rfl
@[simp] theorem State.drawn_pins : s.drawn.pins = s.pins := rfl
@[simp] theorem State.drawn_sys : s.drawn.sys = s.sys := rfl
@[simp] theorem State.drawn_cop : s.drawn.cop = s.cop := rfl
@[simp] theorem State.drawn_bus : s.drawn.bus = s.bus := rfl
@[simp] theorem State.drawn_port : s.drawn.port = s.port := rfl
@[simp] theorem State.drawn_pipe : s.drawn.pipe = s.pipe := rfl
@[simp] theorem State.drawn_ice : s.drawn.ice = s.ice := rfl
@[simp] theorem State.drawn_tap : s.drawn.tap = s.tap := rfl
@[simp] theorem State.drawn_dbg : s.drawn.dbg = s.dbg := rfl
@[simp] theorem State.drawn_inReset : s.drawn.inReset = s.inReset := rfl
@[simp] theorem State.drawn_instrExec : s.drawn.instrExec = s.instrExec := rfl
@[simp] theorem State.drawn_pass : s.drawn.pass = s.pass := rfl
@[simp] theorem State.drawn_lateCancel : s.drawn.lateCancel = s.lateCancel := rfl
@[simp] theorem State.drawn_wrote : s.drawn.wrote = s.wrote := rfl
@[simp] theorem State.drawn_draws : s.drawn.draws = s.draws + 1 := rfl
@[simp] theorem State.drawn_schedule : s.drawn.schedule = s.schedule := rfl

/-! ### advance -/

@[simp] theorem State.advance_regs : s.advance.regs = s.regs := rfl
@[simp] theorem State.advance_pc : s.advance.pc = s.pc + s.width := rfl
@[simp] theorem State.advance_cpsr : s.advance.cpsr = s.cpsr := rfl
@[simp] theorem State.advance_spsr : s.advance.spsr = s.spsr := rfl
@[simp] theorem State.advance_mem : s.advance.mem = s.mem := rfl
@[simp] theorem State.advance_imem : s.advance.imem = s.imem := rfl
@[simp] theorem State.advance_pins : s.advance.pins = s.pins := rfl
@[simp] theorem State.advance_sys : s.advance.sys = s.sys := rfl
@[simp] theorem State.advance_cop : s.advance.cop = s.cop := rfl
@[simp] theorem State.advance_bus : s.advance.bus = s.bus := rfl
@[simp] theorem State.advance_port : s.advance.port = s.port := rfl
@[simp] theorem State.advance_ice : s.advance.ice = s.ice := rfl
@[simp] theorem State.advance_tap : s.advance.tap = s.tap := rfl
@[simp] theorem State.advance_dbg : s.advance.dbg = s.dbg := rfl
@[simp] theorem State.advance_inReset : s.advance.inReset = s.inReset := rfl
@[simp] theorem State.advance_instrExec : s.advance.instrExec = s.instrExec := rfl
@[simp] theorem State.advance_pass : s.advance.pass = s.pass := rfl
@[simp] theorem State.advance_lateCancel : s.advance.lateCancel = s.lateCancel := rfl
@[simp] theorem State.advance_wrote : s.advance.wrote = s.wrote := rfl
@[simp] theorem State.advance_draws : s.advance.draws = s.draws := rfl
@[simp] theorem State.advance_schedule : s.advance.schedule = s.schedule := rfl

/-! ### branchTo -/

@[simp] theorem State.branchTo_regs (a : Word) : (s.branchTo a).regs = s.regs := rfl
@[simp] theorem State.branchTo_pc (a : Word) : (s.branchTo a).pc = a := rfl
@[simp] theorem State.branchTo_cpsr (a : Word) : (s.branchTo a).cpsr = s.cpsr := rfl
@[simp] theorem State.branchTo_spsr (a : Word) : (s.branchTo a).spsr = s.spsr := rfl
@[simp] theorem State.branchTo_mem (a : Word) : (s.branchTo a).mem = s.mem := rfl
@[simp] theorem State.branchTo_imem (a : Word) : (s.branchTo a).imem = s.imem := rfl
@[simp] theorem State.branchTo_pins (a : Word) : (s.branchTo a).pins = s.pins := rfl
@[simp] theorem State.branchTo_sys (a : Word) : (s.branchTo a).sys = s.sys := rfl
@[simp] theorem State.branchTo_cop (a : Word) : (s.branchTo a).cop = s.cop := rfl
@[simp] theorem State.branchTo_bus (a : Word) : (s.branchTo a).bus = s.bus := rfl
@[simp] theorem State.branchTo_port (a : Word) : (s.branchTo a).port = s.port := rfl
@[simp] theorem State.branchTo_pipe (a : Word) : (s.branchTo a).pipe = Pipe.clear := rfl
@[simp] theorem State.branchTo_ice (a : Word) : (s.branchTo a).ice = s.ice := rfl
@[simp] theorem State.branchTo_tap (a : Word) : (s.branchTo a).tap = s.tap := rfl
@[simp] theorem State.branchTo_dbg (a : Word) : (s.branchTo a).dbg = s.dbg := rfl
@[simp] theorem State.branchTo_inReset (a : Word) : (s.branchTo a).inReset = s.inReset := rfl
@[simp] theorem State.branchTo_instrExec (a : Word) : (s.branchTo a).instrExec = s.instrExec := rfl
@[simp] theorem State.branchTo_pass (a : Word) : (s.branchTo a).pass = s.pass := rfl
@[simp] theorem State.branchTo_lateCancel (a : Word) : (s.branchTo a).lateCancel = s.lateCancel := rfl
@[simp] theorem State.branchTo_wrote (a : Word) : (s.branchTo a).wrote = s.wrote := rfl
@[simp] theorem State.branchTo_draws (a : Word) : (s.branchTo a).draws = s.draws := rfl
@[simp] theorem State.branchTo_schedule (a : Word) : (s.branchTo a).schedule = s.schedule := rfl

/-! ### refill -/

@[simp] theorem State.refill_regs : s.refill.regs = s.regs := rfl
@[simp] theorem State.refill_pc : s.refill.pc = s.pc := rfl
@[simp] theorem State.refill_cpsr : s.refill.cpsr = s.cpsr := rfl
@[simp] theorem State.refill_spsr : s.refill.spsr = s.spsr := rfl
@[simp] theorem State.refill_mem : s.refill.mem = s.mem := rfl
@[simp] theorem State.refill_imem : s.refill.imem = s.imem := rfl
@[simp] theorem State.refill_pins : s.refill.pins = s.pins := rfl
@[simp] theorem State.refill_sys : s.refill.sys = s.sys := rfl
@[simp] theorem State.refill_cop : s.refill.cop = s.cop := rfl
@[simp] theorem State.refill_bus : s.refill.bus = s.bus := rfl
@[simp] theorem State.refill_port : s.refill.port = s.port := rfl
@[simp] theorem State.refill_ice : s.refill.ice = s.ice := rfl
@[simp] theorem State.refill_tap : s.refill.tap = s.tap := rfl
@[simp] theorem State.refill_dbg : s.refill.dbg = s.dbg := rfl
@[simp] theorem State.refill_inReset : s.refill.inReset = s.inReset := rfl
@[simp] theorem State.refill_instrExec : s.refill.instrExec = s.instrExec := rfl
@[simp] theorem State.refill_pass : s.refill.pass = s.pass := rfl
@[simp] theorem State.refill_lateCancel : s.refill.lateCancel = s.lateCancel := rfl
@[simp] theorem State.refill_wrote : s.refill.wrote = s.wrote := rfl
@[simp] theorem State.refill_draws : s.refill.draws = s.draws := rfl
@[simp] theorem State.refill_schedule : s.refill.schedule = s.schedule := rfl

/-! ### executed -/

@[simp] theorem State.executed_regs (b : Bool) : (s.executed b).regs = s.regs := rfl
@[simp] theorem State.executed_pc (b : Bool) : (s.executed b).pc = s.pc := rfl
@[simp] theorem State.executed_cpsr (b : Bool) : (s.executed b).cpsr = s.cpsr := rfl
@[simp] theorem State.executed_spsr (b : Bool) : (s.executed b).spsr = s.spsr := rfl
@[simp] theorem State.executed_mem (b : Bool) : (s.executed b).mem = s.mem := rfl
@[simp] theorem State.executed_imem (b : Bool) : (s.executed b).imem = s.imem := rfl
@[simp] theorem State.executed_pins (b : Bool) : (s.executed b).pins = s.pins := rfl
@[simp] theorem State.executed_sys (b : Bool) : (s.executed b).sys = s.sys := rfl
@[simp] theorem State.executed_cop (b : Bool) : (s.executed b).cop = s.cop := rfl
@[simp] theorem State.executed_bus (b : Bool) : (s.executed b).bus = s.bus := rfl
@[simp] theorem State.executed_port (b : Bool) : (s.executed b).port = s.port := rfl
@[simp] theorem State.executed_pipe (b : Bool) : (s.executed b).pipe = s.pipe := rfl
@[simp] theorem State.executed_ice (b : Bool) : (s.executed b).ice = s.ice := rfl
@[simp] theorem State.executed_tap (b : Bool) : (s.executed b).tap = s.tap := rfl
@[simp] theorem State.executed_dbg (b : Bool) : (s.executed b).dbg = s.dbg := rfl
@[simp] theorem State.executed_inReset (b : Bool) : (s.executed b).inReset = s.inReset := rfl
@[simp] theorem State.executed_instrExec (b : Bool) : (s.executed b).instrExec = b := rfl
@[simp] theorem State.executed_pass (b : Bool) : (s.executed b).pass = s.pass := rfl
@[simp] theorem State.executed_lateCancel (b : Bool) : (s.executed b).lateCancel = s.lateCancel := rfl
@[simp] theorem State.executed_wrote (b : Bool) : (s.executed b).wrote = s.wrote := rfl
@[simp] theorem State.executed_draws (b : Bool) : (s.executed b).draws = s.draws := rfl
@[simp] theorem State.executed_schedule (b : Bool) : (s.executed b).schedule = s.schedule := rfl

/-! ### spend -/

@[simp] theorem State.spend_regs : s.spend.regs = s.regs := rfl
@[simp] theorem State.spend_pc : s.spend.pc = s.pc := rfl
@[simp] theorem State.spend_cpsr : s.spend.cpsr = s.cpsr := rfl
@[simp] theorem State.spend_spsr : s.spend.spsr = s.spsr := rfl
@[simp] theorem State.spend_mem : s.spend.mem = s.mem := rfl
@[simp] theorem State.spend_imem : s.spend.imem = s.imem := rfl
@[simp] theorem State.spend_pins : s.spend.pins = s.pins := rfl
@[simp] theorem State.spend_cop : s.spend.cop = s.cop := rfl
@[simp] theorem State.spend_bus : s.spend.bus = s.bus := rfl
@[simp] theorem State.spend_port : s.spend.port = s.port := rfl
@[simp] theorem State.spend_pipe : s.spend.pipe = s.pipe := rfl
@[simp] theorem State.spend_ice : s.spend.ice = s.ice := rfl
@[simp] theorem State.spend_tap : s.spend.tap = s.tap := rfl
@[simp] theorem State.spend_dbg : s.spend.dbg = s.dbg := rfl
@[simp] theorem State.spend_inReset : s.spend.inReset = s.inReset := rfl
@[simp] theorem State.spend_instrExec : s.spend.instrExec = s.instrExec := rfl
@[simp] theorem State.spend_pass : s.spend.pass = s.pass := rfl
@[simp] theorem State.spend_lateCancel : s.spend.lateCancel = s.lateCancel := rfl
@[simp] theorem State.spend_wrote : s.spend.wrote = s.wrote := rfl
@[simp] theorem State.spend_draws : s.spend.draws = s.draws := rfl
@[simp] theorem State.spend_schedule : s.spend.schedule = s.schedule := rfl

/-! ### accessed -/

@[simp] theorem State.accessed_regs (e : BusEvent) (w : Word) : (s.accessed e w).regs = s.regs := rfl
@[simp] theorem State.accessed_pc (e : BusEvent) (w : Word) : (s.accessed e w).pc = s.pc := rfl
@[simp] theorem State.accessed_cpsr (e : BusEvent) (w : Word) : (s.accessed e w).cpsr = s.cpsr := rfl
@[simp] theorem State.accessed_spsr (e : BusEvent) (w : Word) : (s.accessed e w).spsr = s.spsr := rfl
@[simp] theorem State.accessed_mem (e : BusEvent) (w : Word) : (s.accessed e w).mem = s.mem := rfl
@[simp] theorem State.accessed_imem (e : BusEvent) (w : Word) : (s.accessed e w).imem = s.imem := rfl
@[simp] theorem State.accessed_pins (e : BusEvent) (w : Word) : (s.accessed e w).pins = s.pins := rfl
@[simp] theorem State.accessed_sys (e : BusEvent) (w : Word) : (s.accessed e w).sys = s.sys := rfl
@[simp] theorem State.accessed_cop (e : BusEvent) (w : Word) : (s.accessed e w).cop = s.cop := rfl
@[simp] theorem State.accessed_bus (e : BusEvent) (w : Word) : (s.accessed e w).bus = e :: s.bus := rfl
@[simp] theorem State.accessed_port (e : BusEvent) (w : Word) : (s.accessed e w).port = ⟨some e, false, true, false⟩ := rfl
@[simp] theorem State.accessed_pipe (e : BusEvent) (w : Word) : (s.accessed e w).pipe = s.pipe := rfl
@[simp] theorem State.accessed_ice (e : BusEvent) (w : Word) : (s.accessed e w).ice = Ice.see s.ice s.pins (dataProbe e.addr w e.size e.write e.trans) := rfl
@[simp] theorem State.accessed_tap (e : BusEvent) (w : Word) : (s.accessed e w).tap = s.tap := rfl
@[simp] theorem State.accessed_inReset (e : BusEvent) (w : Word) : (s.accessed e w).inReset = s.inReset := rfl
@[simp] theorem State.accessed_instrExec (e : BusEvent) (w : Word) : (s.accessed e w).instrExec = s.instrExec := rfl
@[simp] theorem State.accessed_pass (e : BusEvent) (w : Word) : (s.accessed e w).pass = s.pass := rfl
@[simp] theorem State.accessed_lateCancel (e : BusEvent) (w : Word) : (s.accessed e w).lateCancel = s.lateCancel := rfl
@[simp] theorem State.accessed_wrote (e : BusEvent) (w : Word) : (s.accessed e w).wrote = s.wrote := rfl
@[simp] theorem State.accessed_draws (e : BusEvent) (w : Word) : (s.accessed e w).draws = s.draws := rfl
@[simp] theorem State.accessed_schedule (e : BusEvent) (w : Word) : (s.accessed e w).schedule = s.schedule := rfl

/-! ### storeMem -/

@[simp] theorem State.storeMem_regs (bs : List (Nat × Byte)) : (s.storeMem bs).regs = s.regs := rfl
@[simp] theorem State.storeMem_pc (bs : List (Nat × Byte)) : (s.storeMem bs).pc = s.pc := rfl
@[simp] theorem State.storeMem_cpsr (bs : List (Nat × Byte)) : (s.storeMem bs).cpsr = s.cpsr := rfl
@[simp] theorem State.storeMem_spsr (bs : List (Nat × Byte)) : (s.storeMem bs).spsr = s.spsr := rfl
@[simp] theorem State.storeMem_mem (bs : List (Nat × Byte)) : (s.storeMem bs).mem = Memory.writeAll s.mem bs := rfl
@[simp] theorem State.storeMem_imem (bs : List (Nat × Byte)) : (s.storeMem bs).imem = s.imem := rfl
@[simp] theorem State.storeMem_pins (bs : List (Nat × Byte)) : (s.storeMem bs).pins = s.pins := rfl
@[simp] theorem State.storeMem_sys (bs : List (Nat × Byte)) : (s.storeMem bs).sys = s.sys := rfl
@[simp] theorem State.storeMem_cop (bs : List (Nat × Byte)) : (s.storeMem bs).cop = s.cop := rfl
@[simp] theorem State.storeMem_bus (bs : List (Nat × Byte)) : (s.storeMem bs).bus = s.bus := rfl
@[simp] theorem State.storeMem_port (bs : List (Nat × Byte)) : (s.storeMem bs).port = s.port := rfl
@[simp] theorem State.storeMem_ice (bs : List (Nat × Byte)) : (s.storeMem bs).ice = s.ice := rfl
@[simp] theorem State.storeMem_tap (bs : List (Nat × Byte)) : (s.storeMem bs).tap = s.tap := rfl
@[simp] theorem State.storeMem_dbg (bs : List (Nat × Byte)) : (s.storeMem bs).dbg = s.dbg := rfl
@[simp] theorem State.storeMem_inReset (bs : List (Nat × Byte)) : (s.storeMem bs).inReset = s.inReset := rfl
@[simp] theorem State.storeMem_instrExec (bs : List (Nat × Byte)) : (s.storeMem bs).instrExec = s.instrExec := rfl
@[simp] theorem State.storeMem_pass (bs : List (Nat × Byte)) : (s.storeMem bs).pass = s.pass := rfl
@[simp] theorem State.storeMem_lateCancel (bs : List (Nat × Byte)) : (s.storeMem bs).lateCancel = s.lateCancel := rfl
@[simp] theorem State.storeMem_wrote (bs : List (Nat × Byte)) : (s.storeMem bs).wrote = s.wrote := rfl
@[simp] theorem State.storeMem_draws (bs : List (Nat × Byte)) : (s.storeMem bs).draws = s.draws := rfl
@[simp] theorem State.storeMem_schedule (bs : List (Nat × Byte)) : (s.storeMem bs).schedule = s.schedule := rfl

/-! ### writeBack -/

@[simp] theorem State.writeBack_pc (w : Option (Reg × Word)) : (s.writeBack w).pc = s.pc := by unfold State.writeBack; split <;> simp
@[simp] theorem State.writeBack_cpsr (w : Option (Reg × Word)) : (s.writeBack w).cpsr = s.cpsr := by unfold State.writeBack; split <;> simp
@[simp] theorem State.writeBack_spsr (w : Option (Reg × Word)) : (s.writeBack w).spsr = s.spsr := by unfold State.writeBack; split <;> simp
@[simp] theorem State.writeBack_mem (w : Option (Reg × Word)) : (s.writeBack w).mem = s.mem := by unfold State.writeBack; split <;> simp
@[simp] theorem State.writeBack_imem (w : Option (Reg × Word)) : (s.writeBack w).imem = s.imem := by unfold State.writeBack; split <;> simp
@[simp] theorem State.writeBack_pins (w : Option (Reg × Word)) : (s.writeBack w).pins = s.pins := by unfold State.writeBack; split <;> simp
@[simp] theorem State.writeBack_sys (w : Option (Reg × Word)) : (s.writeBack w).sys = s.sys := by unfold State.writeBack; split <;> simp
@[simp] theorem State.writeBack_cop (w : Option (Reg × Word)) : (s.writeBack w).cop = s.cop := by unfold State.writeBack; split <;> simp
@[simp] theorem State.writeBack_bus (w : Option (Reg × Word)) : (s.writeBack w).bus = s.bus := by unfold State.writeBack; split <;> simp
@[simp] theorem State.writeBack_port (w : Option (Reg × Word)) : (s.writeBack w).port = s.port := by unfold State.writeBack; split <;> simp
@[simp] theorem State.writeBack_pipe (w : Option (Reg × Word)) : (s.writeBack w).pipe = s.pipe := by unfold State.writeBack; split <;> simp
@[simp] theorem State.writeBack_ice (w : Option (Reg × Word)) : (s.writeBack w).ice = s.ice := by unfold State.writeBack; split <;> simp
@[simp] theorem State.writeBack_tap (w : Option (Reg × Word)) : (s.writeBack w).tap = s.tap := by unfold State.writeBack; split <;> simp
@[simp] theorem State.writeBack_dbg (w : Option (Reg × Word)) : (s.writeBack w).dbg = s.dbg := by unfold State.writeBack; split <;> simp
@[simp] theorem State.writeBack_inReset (w : Option (Reg × Word)) : (s.writeBack w).inReset = s.inReset := by unfold State.writeBack; split <;> simp
@[simp] theorem State.writeBack_instrExec (w : Option (Reg × Word)) : (s.writeBack w).instrExec = s.instrExec := by unfold State.writeBack; split <;> simp
@[simp] theorem State.writeBack_pass (w : Option (Reg × Word)) : (s.writeBack w).pass = s.pass := by unfold State.writeBack; split <;> simp
@[simp] theorem State.writeBack_lateCancel (w : Option (Reg × Word)) : (s.writeBack w).lateCancel = s.lateCancel := by unfold State.writeBack; split <;> simp
@[simp] theorem State.writeBack_draws (w : Option (Reg × Word)) : (s.writeBack w).draws = s.draws := by unfold State.writeBack; split <;> simp
@[simp] theorem State.writeBack_schedule (w : Option (Reg × Word)) : (s.writeBack w).schedule = s.schedule := by unfold State.writeBack; split <;> simp

/-! ### afterUserBank -/

@[simp] theorem State.afterUserBank_regs : s.afterUserBank.regs = s.regs := rfl
@[simp] theorem State.afterUserBank_pc : s.afterUserBank.pc = s.pc := rfl
@[simp] theorem State.afterUserBank_cpsr : s.afterUserBank.cpsr = s.cpsr := rfl
@[simp] theorem State.afterUserBank_spsr : s.afterUserBank.spsr = s.spsr := rfl
@[simp] theorem State.afterUserBank_mem : s.afterUserBank.mem = s.mem := rfl
@[simp] theorem State.afterUserBank_imem : s.afterUserBank.imem = s.imem := rfl
@[simp] theorem State.afterUserBank_pins : s.afterUserBank.pins = s.pins := rfl
@[simp] theorem State.afterUserBank_sys : s.afterUserBank.sys = s.sys := rfl
@[simp] theorem State.afterUserBank_cop : s.afterUserBank.cop = s.cop := rfl
@[simp] theorem State.afterUserBank_bus : s.afterUserBank.bus = s.bus := rfl
@[simp] theorem State.afterUserBank_port : s.afterUserBank.port = s.port := rfl
@[simp] theorem State.afterUserBank_ice : s.afterUserBank.ice = s.ice := rfl
@[simp] theorem State.afterUserBank_tap : s.afterUserBank.tap = s.tap := rfl
@[simp] theorem State.afterUserBank_dbg : s.afterUserBank.dbg = s.dbg := rfl
@[simp] theorem State.afterUserBank_inReset : s.afterUserBank.inReset = s.inReset := rfl
@[simp] theorem State.afterUserBank_instrExec : s.afterUserBank.instrExec = s.instrExec := rfl
@[simp] theorem State.afterUserBank_pass : s.afterUserBank.pass = s.pass := rfl
@[simp] theorem State.afterUserBank_lateCancel : s.afterUserBank.lateCancel = s.lateCancel := rfl
@[simp] theorem State.afterUserBank_wrote : s.afterUserBank.wrote = s.wrote := rfl
@[simp] theorem State.afterUserBank_draws : s.afterUserBank.draws = s.draws := rfl
@[simp] theorem State.afterUserBank_schedule : s.afterUserBank.schedule = s.schedule := rfl

/-! ### passed -/

@[simp] theorem State.passed_regs : s.passed.regs = s.regs := rfl
@[simp] theorem State.passed_pc : s.passed.pc = s.pc := rfl
@[simp] theorem State.passed_cpsr : s.passed.cpsr = s.cpsr := rfl
@[simp] theorem State.passed_spsr : s.passed.spsr = s.spsr := rfl
@[simp] theorem State.passed_mem : s.passed.mem = s.mem := rfl
@[simp] theorem State.passed_imem : s.passed.imem = s.imem := rfl
@[simp] theorem State.passed_pins : s.passed.pins = s.pins := rfl
@[simp] theorem State.passed_sys : s.passed.sys = s.sys := rfl
@[simp] theorem State.passed_cop : s.passed.cop = s.cop := rfl
@[simp] theorem State.passed_bus : s.passed.bus = s.bus := rfl
@[simp] theorem State.passed_port : s.passed.port = s.port := rfl
@[simp] theorem State.passed_pipe : s.passed.pipe = s.pipe := rfl
@[simp] theorem State.passed_ice : s.passed.ice = s.ice := rfl
@[simp] theorem State.passed_tap : s.passed.tap = s.tap := rfl
@[simp] theorem State.passed_dbg : s.passed.dbg = s.dbg := rfl
@[simp] theorem State.passed_inReset : s.passed.inReset = s.inReset := rfl
@[simp] theorem State.passed_instrExec : s.passed.instrExec = s.instrExec := rfl
@[simp] theorem State.passed_pass : s.passed.pass = true := rfl
@[simp] theorem State.passed_lateCancel : s.passed.lateCancel = s.lateCancel := rfl
@[simp] theorem State.passed_wrote : s.passed.wrote = s.wrote := rfl
@[simp] theorem State.passed_draws : s.passed.draws = s.draws := rfl
@[simp] theorem State.passed_schedule : s.passed.schedule = s.schedule := rfl

/-! ### cancelNext -/

@[simp] theorem State.cancelNext_regs : s.cancelNext.regs = s.regs := by unfold State.cancelNext; split <;> rfl
@[simp] theorem State.cancelNext_pc : s.cancelNext.pc = s.pc := by unfold State.cancelNext; split <;> rfl
@[simp] theorem State.cancelNext_cpsr : s.cancelNext.cpsr = s.cpsr := by unfold State.cancelNext; split <;> rfl
@[simp] theorem State.cancelNext_spsr : s.cancelNext.spsr = s.spsr := by unfold State.cancelNext; split <;> rfl
@[simp] theorem State.cancelNext_mem : s.cancelNext.mem = s.mem := by unfold State.cancelNext; split <;> rfl
@[simp] theorem State.cancelNext_imem : s.cancelNext.imem = s.imem := by unfold State.cancelNext; split <;> rfl
@[simp] theorem State.cancelNext_pins : s.cancelNext.pins = s.pins := by unfold State.cancelNext; split <;> rfl
@[simp] theorem State.cancelNext_sys : s.cancelNext.sys = s.sys := by unfold State.cancelNext; split <;> rfl
@[simp] theorem State.cancelNext_bus : s.cancelNext.bus = s.bus := by unfold State.cancelNext; split <;> rfl
@[simp] theorem State.cancelNext_port : s.cancelNext.port = s.port := by unfold State.cancelNext; split <;> rfl
@[simp] theorem State.cancelNext_pipe : s.cancelNext.pipe = s.pipe := by unfold State.cancelNext; split <;> rfl
@[simp] theorem State.cancelNext_ice : s.cancelNext.ice = s.ice := by unfold State.cancelNext; split <;> rfl
@[simp] theorem State.cancelNext_tap : s.cancelNext.tap = s.tap := by unfold State.cancelNext; split <;> rfl
@[simp] theorem State.cancelNext_dbg : s.cancelNext.dbg = s.dbg := by unfold State.cancelNext; split <;> rfl
@[simp] theorem State.cancelNext_inReset : s.cancelNext.inReset = s.inReset := by unfold State.cancelNext; split <;> rfl
@[simp] theorem State.cancelNext_instrExec : s.cancelNext.instrExec = s.instrExec := by unfold State.cancelNext; split <;> rfl
@[simp] theorem State.cancelNext_wrote : s.cancelNext.wrote = s.wrote := by unfold State.cancelNext; split <;> rfl
@[simp] theorem State.cancelNext_draws : s.cancelNext.draws = s.draws := by unfold State.cancelNext; split <;> rfl
@[simp] theorem State.cancelNext_schedule : s.cancelNext.schedule = s.schedule := by unfold State.cancelNext; split <;> rfl

/-! ### noExec -/

@[simp] theorem State.noExec_regs : s.noExec.regs = s.regs := by unfold State.noExec; split <;> rfl
@[simp] theorem State.noExec_pc : s.noExec.pc = s.pc := by unfold State.noExec; split <;> rfl
@[simp] theorem State.noExec_cpsr : s.noExec.cpsr = s.cpsr := by unfold State.noExec; split <;> rfl
@[simp] theorem State.noExec_spsr : s.noExec.spsr = s.spsr := by unfold State.noExec; split <;> rfl
@[simp] theorem State.noExec_mem : s.noExec.mem = s.mem := by unfold State.noExec; split <;> rfl
@[simp] theorem State.noExec_imem : s.noExec.imem = s.imem := by unfold State.noExec; split <;> rfl
@[simp] theorem State.noExec_pins : s.noExec.pins = s.pins := by unfold State.noExec; split <;> rfl
@[simp] theorem State.noExec_sys : s.noExec.sys = s.sys := by unfold State.noExec; split <;> rfl
@[simp] theorem State.noExec_bus : s.noExec.bus = s.bus := by unfold State.noExec; split <;> rfl
@[simp] theorem State.noExec_port : s.noExec.port = s.port.retained := by unfold State.noExec; split <;> rfl
@[simp] theorem State.noExec_pipe : s.noExec.pipe = s.pipe := by unfold State.noExec; split <;> rfl
@[simp] theorem State.noExec_ice : s.noExec.ice = s.ice := by unfold State.noExec; split <;> rfl
@[simp] theorem State.noExec_tap : s.noExec.tap = s.tap := by unfold State.noExec; split <;> rfl
@[simp] theorem State.noExec_dbg : s.noExec.dbg = s.dbg := by unfold State.noExec; split <;> rfl
@[simp] theorem State.noExec_inReset : s.noExec.inReset = s.inReset := by unfold State.noExec; split <;> rfl
@[simp] theorem State.noExec_instrExec : s.noExec.instrExec = false := by unfold State.noExec; split <;> rfl
@[simp] theorem State.noExec_pass : s.noExec.pass = false := by unfold State.noExec; split <;> rfl
@[simp] theorem State.noExec_lateCancel : s.noExec.lateCancel = false := by unfold State.noExec; split <;> rfl
@[simp] theorem State.noExec_wrote : s.noExec.wrote = [] := by unfold State.noExec; split <;> rfl
@[simp] theorem State.noExec_draws : s.noExec.draws = s.draws := by unfold State.noExec; split <;> rfl
@[simp] theorem State.noExec_schedule : s.noExec.schedule = s.schedule := by unfold State.noExec; split <;> rfl

/-! ### answered -/

@[simp] theorem State.answered_regs (l : List CpReply) : (s.answered l).regs = s.regs := rfl
@[simp] theorem State.answered_pc (l : List CpReply) : (s.answered l).pc = s.pc := rfl
@[simp] theorem State.answered_cpsr (l : List CpReply) : (s.answered l).cpsr = s.cpsr := rfl
@[simp] theorem State.answered_spsr (l : List CpReply) : (s.answered l).spsr = s.spsr := rfl
@[simp] theorem State.answered_mem (l : List CpReply) : (s.answered l).mem = s.mem := rfl
@[simp] theorem State.answered_imem (l : List CpReply) : (s.answered l).imem = s.imem := rfl
@[simp] theorem State.answered_pins (l : List CpReply) : (s.answered l).pins = s.pins := rfl
@[simp] theorem State.answered_sys (l : List CpReply) : (s.answered l).sys = s.sys := rfl
@[simp] theorem State.answered_bus (l : List CpReply) : (s.answered l).bus = s.bus := rfl
@[simp] theorem State.answered_port (l : List CpReply) : (s.answered l).port = s.port := rfl
@[simp] theorem State.answered_pipe (l : List CpReply) : (s.answered l).pipe = s.pipe := rfl
@[simp] theorem State.answered_ice (l : List CpReply) : (s.answered l).ice = s.ice := rfl
@[simp] theorem State.answered_tap (l : List CpReply) : (s.answered l).tap = s.tap := rfl
@[simp] theorem State.answered_dbg (l : List CpReply) : (s.answered l).dbg = s.dbg := rfl
@[simp] theorem State.answered_inReset (l : List CpReply) : (s.answered l).inReset = s.inReset := rfl
@[simp] theorem State.answered_instrExec (l : List CpReply) : (s.answered l).instrExec = s.instrExec := rfl
@[simp] theorem State.answered_pass (l : List CpReply) : (s.answered l).pass = s.pass := rfl
@[simp] theorem State.answered_lateCancel (l : List CpReply) : (s.answered l).lateCancel = s.lateCancel := rfl
@[simp] theorem State.answered_wrote (l : List CpReply) : (s.answered l).wrote = s.wrote := rfl
@[simp] theorem State.answered_draws (l : List CpReply) : (s.answered l).draws = s.draws := rfl
@[simp] theorem State.answered_schedule (l : List CpReply) : (s.answered l).schedule = s.schedule := rfl

/-! ### waiting -/

@[simp] theorem State.waiting_regs : s.waiting.regs = s.regs := rfl
@[simp] theorem State.waiting_pc : s.waiting.pc = s.pc := rfl
@[simp] theorem State.waiting_cpsr : s.waiting.cpsr = s.cpsr := rfl
@[simp] theorem State.waiting_spsr : s.waiting.spsr = s.spsr := rfl
@[simp] theorem State.waiting_mem : s.waiting.mem = s.mem := rfl
@[simp] theorem State.waiting_imem : s.waiting.imem = s.imem := rfl
@[simp] theorem State.waiting_pins : s.waiting.pins = s.pins := rfl
@[simp] theorem State.waiting_sys : s.waiting.sys = s.sys := rfl
@[simp] theorem State.waiting_cop : s.waiting.cop = s.cop := rfl
@[simp] theorem State.waiting_bus : s.waiting.bus = s.bus := rfl
@[simp] theorem State.waiting_port : s.waiting.port = s.port := rfl
@[simp] theorem State.waiting_ice : s.waiting.ice = s.ice := rfl
@[simp] theorem State.waiting_tap : s.waiting.tap = s.tap := rfl
@[simp] theorem State.waiting_dbg : s.waiting.dbg = s.dbg := rfl
@[simp] theorem State.waiting_inReset : s.waiting.inReset = s.inReset := rfl
@[simp] theorem State.waiting_instrExec : s.waiting.instrExec = s.instrExec := rfl
@[simp] theorem State.waiting_pass : s.waiting.pass = s.pass := rfl
@[simp] theorem State.waiting_lateCancel : s.waiting.lateCancel = s.lateCancel := rfl
@[simp] theorem State.waiting_wrote : s.waiting.wrote = s.wrote := rfl
@[simp] theorem State.waiting_draws : s.waiting.draws = s.draws := rfl
@[simp] theorem State.waiting_schedule : s.waiting.schedule = s.schedule := rfl

/-! ### tell -/

@[simp] theorem State.tell_regs (e : CpEvent) : (s.tell e).regs = s.regs := rfl
@[simp] theorem State.tell_pc (e : CpEvent) : (s.tell e).pc = s.pc := rfl
@[simp] theorem State.tell_cpsr (e : CpEvent) : (s.tell e).cpsr = s.cpsr := rfl
@[simp] theorem State.tell_spsr (e : CpEvent) : (s.tell e).spsr = s.spsr := rfl
@[simp] theorem State.tell_mem (e : CpEvent) : (s.tell e).mem = s.mem := rfl
@[simp] theorem State.tell_imem (e : CpEvent) : (s.tell e).imem = s.imem := rfl
@[simp] theorem State.tell_pins (e : CpEvent) : (s.tell e).pins = s.pins := rfl
@[simp] theorem State.tell_sys (e : CpEvent) : (s.tell e).sys = s.sys := rfl
@[simp] theorem State.tell_bus (e : CpEvent) : (s.tell e).bus = s.bus := rfl
@[simp] theorem State.tell_port (e : CpEvent) : (s.tell e).port = s.port := rfl
@[simp] theorem State.tell_pipe (e : CpEvent) : (s.tell e).pipe = s.pipe := rfl
@[simp] theorem State.tell_ice (e : CpEvent) : (s.tell e).ice = s.ice := rfl
@[simp] theorem State.tell_tap (e : CpEvent) : (s.tell e).tap = s.tap := rfl
@[simp] theorem State.tell_dbg (e : CpEvent) : (s.tell e).dbg = s.dbg := rfl
@[simp] theorem State.tell_inReset (e : CpEvent) : (s.tell e).inReset = s.inReset := rfl
@[simp] theorem State.tell_instrExec (e : CpEvent) : (s.tell e).instrExec = s.instrExec := rfl
@[simp] theorem State.tell_pass (e : CpEvent) : (s.tell e).pass = s.pass := rfl
@[simp] theorem State.tell_lateCancel (e : CpEvent) : (s.tell e).lateCancel = s.lateCancel := rfl
@[simp] theorem State.tell_wrote (e : CpEvent) : (s.tell e).wrote = s.wrote := rfl
@[simp] theorem State.tell_draws (e : CpEvent) : (s.tell e).draws = s.draws := rfl
@[simp] theorem State.tell_schedule (e : CpEvent) : (s.tell e).schedule = s.schedule := rfl

/-! ### commsPut -/

@[simp] theorem State.commsPut_regs (v : Word) : (s.commsPut v).regs = s.regs := rfl
@[simp] theorem State.commsPut_pc (v : Word) : (s.commsPut v).pc = s.pc := rfl
@[simp] theorem State.commsPut_cpsr (v : Word) : (s.commsPut v).cpsr = s.cpsr := rfl
@[simp] theorem State.commsPut_spsr (v : Word) : (s.commsPut v).spsr = s.spsr := rfl
@[simp] theorem State.commsPut_mem (v : Word) : (s.commsPut v).mem = s.mem := rfl
@[simp] theorem State.commsPut_imem (v : Word) : (s.commsPut v).imem = s.imem := rfl
@[simp] theorem State.commsPut_pins (v : Word) : (s.commsPut v).pins = s.pins := rfl
@[simp] theorem State.commsPut_sys (v : Word) : (s.commsPut v).sys = s.sys := rfl
@[simp] theorem State.commsPut_cop (v : Word) : (s.commsPut v).cop = s.cop := rfl
@[simp] theorem State.commsPut_bus (v : Word) : (s.commsPut v).bus = s.bus := rfl
@[simp] theorem State.commsPut_port (v : Word) : (s.commsPut v).port = s.port := rfl
@[simp] theorem State.commsPut_pipe (v : Word) : (s.commsPut v).pipe = s.pipe := rfl
@[simp] theorem State.commsPut_tap (v : Word) : (s.commsPut v).tap = s.tap := rfl
@[simp] theorem State.commsPut_dbg (v : Word) : (s.commsPut v).dbg = s.dbg := rfl
@[simp] theorem State.commsPut_inReset (v : Word) : (s.commsPut v).inReset = s.inReset := rfl
@[simp] theorem State.commsPut_instrExec (v : Word) : (s.commsPut v).instrExec = s.instrExec := rfl
@[simp] theorem State.commsPut_pass (v : Word) : (s.commsPut v).pass = s.pass := rfl
@[simp] theorem State.commsPut_lateCancel (v : Word) : (s.commsPut v).lateCancel = s.lateCancel := rfl
@[simp] theorem State.commsPut_wrote (v : Word) : (s.commsPut v).wrote = s.wrote := rfl
@[simp] theorem State.commsPut_draws (v : Word) : (s.commsPut v).draws = s.draws := rfl
@[simp] theorem State.commsPut_schedule (v : Word) : (s.commsPut v).schedule = s.schedule := rfl

/-! ### commsTaken -/

@[simp] theorem State.commsTaken_regs : s.commsTaken.regs = s.regs := rfl
@[simp] theorem State.commsTaken_pc : s.commsTaken.pc = s.pc := rfl
@[simp] theorem State.commsTaken_cpsr : s.commsTaken.cpsr = s.cpsr := rfl
@[simp] theorem State.commsTaken_spsr : s.commsTaken.spsr = s.spsr := rfl
@[simp] theorem State.commsTaken_mem : s.commsTaken.mem = s.mem := rfl
@[simp] theorem State.commsTaken_imem : s.commsTaken.imem = s.imem := rfl
@[simp] theorem State.commsTaken_pins : s.commsTaken.pins = s.pins := rfl
@[simp] theorem State.commsTaken_sys : s.commsTaken.sys = s.sys := rfl
@[simp] theorem State.commsTaken_cop : s.commsTaken.cop = s.cop := rfl
@[simp] theorem State.commsTaken_bus : s.commsTaken.bus = s.bus := rfl
@[simp] theorem State.commsTaken_port : s.commsTaken.port = s.port := rfl
@[simp] theorem State.commsTaken_pipe : s.commsTaken.pipe = s.pipe := rfl
@[simp] theorem State.commsTaken_tap : s.commsTaken.tap = s.tap := rfl
@[simp] theorem State.commsTaken_dbg : s.commsTaken.dbg = s.dbg := rfl
@[simp] theorem State.commsTaken_inReset : s.commsTaken.inReset = s.inReset := rfl
@[simp] theorem State.commsTaken_instrExec : s.commsTaken.instrExec = s.instrExec := rfl
@[simp] theorem State.commsTaken_pass : s.commsTaken.pass = s.pass := rfl
@[simp] theorem State.commsTaken_lateCancel : s.commsTaken.lateCancel = s.lateCancel := rfl
@[simp] theorem State.commsTaken_wrote : s.commsTaken.wrote = s.wrote := rfl
@[simp] theorem State.commsTaken_draws : s.commsTaken.draws = s.draws := rfl
@[simp] theorem State.commsTaken_schedule : s.commsTaken.schedule = s.schedule := rfl

/-! ### movedToArm -/

@[simp] theorem State.movedToArm_pc (rd : Reg) (v : Word) : (s.movedToArm rd v).pc = s.pc := by unfold State.movedToArm; split <;> simp
@[simp] theorem State.movedToArm_spsr (rd : Reg) (v : Word) : (s.movedToArm rd v).spsr = s.spsr := by unfold State.movedToArm; split <;> simp
@[simp] theorem State.movedToArm_mem (rd : Reg) (v : Word) : (s.movedToArm rd v).mem = s.mem := by unfold State.movedToArm; split <;> simp
@[simp] theorem State.movedToArm_imem (rd : Reg) (v : Word) : (s.movedToArm rd v).imem = s.imem := by unfold State.movedToArm; split <;> simp
@[simp] theorem State.movedToArm_pins (rd : Reg) (v : Word) : (s.movedToArm rd v).pins = s.pins := by unfold State.movedToArm; split <;> simp
@[simp] theorem State.movedToArm_sys (rd : Reg) (v : Word) : (s.movedToArm rd v).sys = s.sys := by unfold State.movedToArm; split <;> simp
@[simp] theorem State.movedToArm_cop (rd : Reg) (v : Word) : (s.movedToArm rd v).cop = s.cop := by unfold State.movedToArm; split <;> simp
@[simp] theorem State.movedToArm_bus (rd : Reg) (v : Word) : (s.movedToArm rd v).bus = s.bus := by unfold State.movedToArm; split <;> simp
@[simp] theorem State.movedToArm_port (rd : Reg) (v : Word) : (s.movedToArm rd v).port = s.port := by unfold State.movedToArm; split <;> simp
@[simp] theorem State.movedToArm_pipe (rd : Reg) (v : Word) : (s.movedToArm rd v).pipe = s.pipe := by unfold State.movedToArm; split <;> simp
@[simp] theorem State.movedToArm_ice (rd : Reg) (v : Word) : (s.movedToArm rd v).ice = s.ice := by unfold State.movedToArm; split <;> simp
@[simp] theorem State.movedToArm_tap (rd : Reg) (v : Word) : (s.movedToArm rd v).tap = s.tap := by unfold State.movedToArm; split <;> simp
@[simp] theorem State.movedToArm_dbg (rd : Reg) (v : Word) : (s.movedToArm rd v).dbg = s.dbg := by unfold State.movedToArm; split <;> simp
@[simp] theorem State.movedToArm_inReset (rd : Reg) (v : Word) : (s.movedToArm rd v).inReset = s.inReset := by unfold State.movedToArm; split <;> simp
@[simp] theorem State.movedToArm_instrExec (rd : Reg) (v : Word) : (s.movedToArm rd v).instrExec = s.instrExec := by unfold State.movedToArm; split <;> simp
@[simp] theorem State.movedToArm_pass (rd : Reg) (v : Word) : (s.movedToArm rd v).pass = s.pass := by unfold State.movedToArm; split <;> simp
@[simp] theorem State.movedToArm_lateCancel (rd : Reg) (v : Word) : (s.movedToArm rd v).lateCancel = s.lateCancel := by unfold State.movedToArm; split <;> simp
@[simp] theorem State.movedToArm_draws (rd : Reg) (v : Word) : (s.movedToArm rd v).draws = s.draws := by unfold State.movedToArm; split <;> simp
@[simp] theorem State.movedToArm_schedule (rd : Reg) (v : Word) : (s.movedToArm rd v).schedule = s.schedule := by unfold State.movedToArm; split <;> simp

/-! ### copTransfer -/

@[simp] theorem State.copTransfer_regs (a : Option Word) (w : Bool) (v : Word) : (s.copTransfer a w v).regs = s.regs := rfl
@[simp] theorem State.copTransfer_pc (a : Option Word) (w : Bool) (v : Word) : (s.copTransfer a w v).pc = s.pc := rfl
@[simp] theorem State.copTransfer_cpsr (a : Option Word) (w : Bool) (v : Word) : (s.copTransfer a w v).cpsr = s.cpsr := rfl
@[simp] theorem State.copTransfer_spsr (a : Option Word) (w : Bool) (v : Word) : (s.copTransfer a w v).spsr = s.spsr := rfl
@[simp] theorem State.copTransfer_mem (a : Option Word) (w : Bool) (v : Word) : (s.copTransfer a w v).mem = s.mem := rfl
@[simp] theorem State.copTransfer_imem (a : Option Word) (w : Bool) (v : Word) : (s.copTransfer a w v).imem = s.imem := rfl
@[simp] theorem State.copTransfer_pins (a : Option Word) (w : Bool) (v : Word) : (s.copTransfer a w v).pins = s.pins := rfl
@[simp] theorem State.copTransfer_sys (a : Option Word) (w : Bool) (v : Word) : (s.copTransfer a w v).sys = s.sys := rfl
@[simp] theorem State.copTransfer_cop (a : Option Word) (w : Bool) (v : Word) : (s.copTransfer a w v).cop = s.cop := rfl
@[simp] theorem State.copTransfer_bus (a : Option Word) (w : Bool) (v : Word) : (s.copTransfer a w v).bus = s.bus := rfl
@[simp] theorem State.copTransfer_pipe (a : Option Word) (w : Bool) (v : Word) : (s.copTransfer a w v).pipe = s.pipe := rfl
@[simp] theorem State.copTransfer_ice (a : Option Word) (w : Bool) (v : Word) : (s.copTransfer a w v).ice = s.ice := rfl
@[simp] theorem State.copTransfer_tap (a : Option Word) (w : Bool) (v : Word) : (s.copTransfer a w v).tap = s.tap := rfl
@[simp] theorem State.copTransfer_dbg (a : Option Word) (w : Bool) (v : Word) : (s.copTransfer a w v).dbg = s.dbg := rfl
@[simp] theorem State.copTransfer_inReset (a : Option Word) (w : Bool) (v : Word) : (s.copTransfer a w v).inReset = s.inReset := rfl
@[simp] theorem State.copTransfer_instrExec (a : Option Word) (w : Bool) (v : Word) : (s.copTransfer a w v).instrExec = s.instrExec := rfl
@[simp] theorem State.copTransfer_pass (a : Option Word) (w : Bool) (v : Word) : (s.copTransfer a w v).pass = s.pass := rfl
@[simp] theorem State.copTransfer_lateCancel (a : Option Word) (w : Bool) (v : Word) : (s.copTransfer a w v).lateCancel = s.lateCancel := rfl
@[simp] theorem State.copTransfer_wrote (a : Option Word) (w : Bool) (v : Word) : (s.copTransfer a w v).wrote = s.wrote := rfl
@[simp] theorem State.copTransfer_draws (a : Option Word) (w : Bool) (v : Word) : (s.copTransfer a w v).draws = s.draws + 1 := rfl
@[simp] theorem State.copTransfer_schedule (a : Option Word) (w : Bool) (v : Word) : (s.copTransfer a w v).schedule = s.schedule := rfl

/-! ### raise -/

@[simp] theorem State.raise_pc (e : Exc) (l : Word) : (s.raise e l).pc = s.vectorBase + BitVec.ofNat 32 (4 * e.vector) := by simp [State.raise]
@[simp] theorem State.raise_cpsr (e : Exc) (l : Word) : (s.raise e l).cpsr = enterCpsr s.cpsr e := by simp [State.raise]
@[simp] theorem State.raise_mem (e : Exc) (l : Word) : (s.raise e l).mem = s.mem := by simp [State.raise]
@[simp] theorem State.raise_imem (e : Exc) (l : Word) : (s.raise e l).imem = s.imem := by simp [State.raise]
@[simp] theorem State.raise_pins (e : Exc) (l : Word) : (s.raise e l).pins = s.pins := by simp [State.raise]
@[simp] theorem State.raise_sys (e : Exc) (l : Word) : (s.raise e l).sys = s.sys := by simp [State.raise]
@[simp] theorem State.raise_cop (e : Exc) (l : Word) : (s.raise e l).cop = s.cop := by simp [State.raise]
@[simp] theorem State.raise_bus (e : Exc) (l : Word) : (s.raise e l).bus = s.bus := by simp [State.raise]
@[simp] theorem State.raise_port (e : Exc) (l : Word) : (s.raise e l).port = s.port := by simp [State.raise]
@[simp] theorem State.raise_ice (e : Exc) (l : Word) : (s.raise e l).ice = s.ice := by simp [State.raise]
@[simp] theorem State.raise_tap (e : Exc) (l : Word) : (s.raise e l).tap = s.tap := by simp [State.raise]
@[simp] theorem State.raise_inReset (e : Exc) (l : Word) : (s.raise e l).inReset = s.inReset := by simp [State.raise]
@[simp] theorem State.raise_instrExec (e : Exc) (l : Word) : (s.raise e l).instrExec = s.instrExec := by simp [State.raise]
@[simp] theorem State.raise_pass (e : Exc) (l : Word) : (s.raise e l).pass = s.pass := by simp [State.raise]
@[simp] theorem State.raise_lateCancel (e : Exc) (l : Word) : (s.raise e l).lateCancel = s.lateCancel := by simp [State.raise]
@[simp] theorem State.raise_draws (e : Exc) (l : Word) : (s.raise e l).draws = s.draws := by simp [State.raise]
@[simp] theorem State.raise_schedule (e : Exc) (l : Word) : (s.raise e l).schedule = s.schedule := by simp [State.raise]

/-! ### takeDataAbort -/

@[simp] theorem State.takeDataAbort_cpsr : s.takeDataAbort.cpsr = enterCpsr s.cpsr .dataAbort := by simp [State.takeDataAbort]
@[simp] theorem State.takeDataAbort_mem : s.takeDataAbort.mem = s.mem := by simp [State.takeDataAbort]
@[simp] theorem State.takeDataAbort_imem : s.takeDataAbort.imem = s.imem := by simp [State.takeDataAbort]
@[simp] theorem State.takeDataAbort_pins : s.takeDataAbort.pins = s.pins := by simp [State.takeDataAbort]
@[simp] theorem State.takeDataAbort_sys : s.takeDataAbort.sys = s.sys := by simp [State.takeDataAbort]
@[simp] theorem State.takeDataAbort_bus : s.takeDataAbort.bus = s.bus := by simp [State.takeDataAbort]
@[simp] theorem State.takeDataAbort_port : s.takeDataAbort.port = s.port := by simp [State.takeDataAbort]
@[simp] theorem State.takeDataAbort_ice : s.takeDataAbort.ice = s.ice := by simp [State.takeDataAbort]
@[simp] theorem State.takeDataAbort_tap : s.takeDataAbort.tap = s.tap := by simp [State.takeDataAbort]
@[simp] theorem State.takeDataAbort_inReset : s.takeDataAbort.inReset = s.inReset := by simp [State.takeDataAbort]
@[simp] theorem State.takeDataAbort_instrExec : s.takeDataAbort.instrExec = s.instrExec := by simp [State.takeDataAbort]
@[simp] theorem State.takeDataAbort_draws : s.takeDataAbort.draws = s.draws := by simp [State.takeDataAbort]
@[simp] theorem State.takeDataAbort_schedule : s.takeDataAbort.schedule = s.schedule := by simp [State.takeDataAbort]

/-! ### fetchNext -/

@[simp] theorem State.fetchNext_regs : s.fetchNext.regs = s.regs := rfl
@[simp] theorem State.fetchNext_pc : s.fetchNext.pc = s.pc := rfl
@[simp] theorem State.fetchNext_cpsr : s.fetchNext.cpsr = s.cpsr := rfl
@[simp] theorem State.fetchNext_spsr : s.fetchNext.spsr = s.spsr := rfl
@[simp] theorem State.fetchNext_mem : s.fetchNext.mem = s.mem := rfl
@[simp] theorem State.fetchNext_imem : s.fetchNext.imem = s.imem := rfl
@[simp] theorem State.fetchNext_pins : s.fetchNext.pins = s.pins := rfl
@[simp] theorem State.fetchNext_sys : s.fetchNext.sys = s.sys := rfl
@[simp] theorem State.fetchNext_cop : s.fetchNext.cop = s.cop := rfl
@[simp] theorem State.fetchNext_bus : s.fetchNext.bus = s.bus := rfl
@[simp] theorem State.fetchNext_port : s.fetchNext.port = s.port := rfl
@[simp] theorem State.fetchNext_ice : s.fetchNext.ice = Ice.see s.ice s.pins s.fetchSeen := rfl
@[simp] theorem State.fetchNext_tap : s.fetchNext.tap = s.tap := rfl
@[simp] theorem State.fetchNext_dbg : s.fetchNext.dbg = s.dbg := rfl
@[simp] theorem State.fetchNext_inReset : s.fetchNext.inReset = s.inReset := rfl
@[simp] theorem State.fetchNext_instrExec : s.fetchNext.instrExec = s.instrExec := rfl
@[simp] theorem State.fetchNext_pass : s.fetchNext.pass = s.pass := rfl
@[simp] theorem State.fetchNext_lateCancel : s.fetchNext.lateCancel = s.lateCancel := rfl
@[simp] theorem State.fetchNext_wrote : s.fetchNext.wrote = s.wrote := rfl
@[simp] theorem State.fetchNext_draws : s.fetchNext.draws = s.draws + 1 := rfl
@[simp] theorem State.fetchNext_schedule : s.fetchNext.schedule = s.schedule := rfl

/-! ### fill -/

@[simp] theorem State.fill_regs : ∀ (n : Nat) (s : State), (State.fill n s).regs = s.regs
  | 0, _ => rfl
  | n + 1, s => State.fill_regs n s.fetchNext
@[simp] theorem State.fill_pc : ∀ (n : Nat) (s : State), (State.fill n s).pc = s.pc
  | 0, _ => rfl
  | n + 1, s => State.fill_pc n s.fetchNext
@[simp] theorem State.fill_cpsr : ∀ (n : Nat) (s : State), (State.fill n s).cpsr = s.cpsr
  | 0, _ => rfl
  | n + 1, s => State.fill_cpsr n s.fetchNext
@[simp] theorem State.fill_spsr : ∀ (n : Nat) (s : State), (State.fill n s).spsr = s.spsr
  | 0, _ => rfl
  | n + 1, s => State.fill_spsr n s.fetchNext
@[simp] theorem State.fill_mem : ∀ (n : Nat) (s : State), (State.fill n s).mem = s.mem
  | 0, _ => rfl
  | n + 1, s => State.fill_mem n s.fetchNext
@[simp] theorem State.fill_imem : ∀ (n : Nat) (s : State), (State.fill n s).imem = s.imem
  | 0, _ => rfl
  | n + 1, s => State.fill_imem n s.fetchNext
@[simp] theorem State.fill_pins : ∀ (n : Nat) (s : State), (State.fill n s).pins = s.pins
  | 0, _ => rfl
  | n + 1, s => State.fill_pins n s.fetchNext
@[simp] theorem State.fill_sys : ∀ (n : Nat) (s : State), (State.fill n s).sys = s.sys
  | 0, _ => rfl
  | n + 1, s => State.fill_sys n s.fetchNext
@[simp] theorem State.fill_cop : ∀ (n : Nat) (s : State), (State.fill n s).cop = s.cop
  | 0, _ => rfl
  | n + 1, s => State.fill_cop n s.fetchNext
@[simp] theorem State.fill_bus : ∀ (n : Nat) (s : State), (State.fill n s).bus = s.bus
  | 0, _ => rfl
  | n + 1, s => State.fill_bus n s.fetchNext
@[simp] theorem State.fill_port : ∀ (n : Nat) (s : State), (State.fill n s).port = s.port
  | 0, _ => rfl
  | n + 1, s => State.fill_port n s.fetchNext
@[simp] theorem State.fill_tap : ∀ (n : Nat) (s : State), (State.fill n s).tap = s.tap
  | 0, _ => rfl
  | n + 1, s => State.fill_tap n s.fetchNext
@[simp] theorem State.fill_dbg : ∀ (n : Nat) (s : State), (State.fill n s).dbg = s.dbg
  | 0, _ => rfl
  | n + 1, s => State.fill_dbg n s.fetchNext
@[simp] theorem State.fill_inReset : ∀ (n : Nat) (s : State), (State.fill n s).inReset = s.inReset
  | 0, _ => rfl
  | n + 1, s => State.fill_inReset n s.fetchNext
@[simp] theorem State.fill_instrExec : ∀ (n : Nat) (s : State), (State.fill n s).instrExec = s.instrExec
  | 0, _ => rfl
  | n + 1, s => State.fill_instrExec n s.fetchNext
@[simp] theorem State.fill_pass : ∀ (n : Nat) (s : State), (State.fill n s).pass = s.pass
  | 0, _ => rfl
  | n + 1, s => State.fill_pass n s.fetchNext
@[simp] theorem State.fill_lateCancel : ∀ (n : Nat) (s : State), (State.fill n s).lateCancel = s.lateCancel
  | 0, _ => rfl
  | n + 1, s => State.fill_lateCancel n s.fetchNext
@[simp] theorem State.fill_wrote : ∀ (n : Nat) (s : State), (State.fill n s).wrote = s.wrote
  | 0, _ => rfl
  | n + 1, s => State.fill_wrote n s.fetchNext
@[simp] theorem State.fill_schedule : ∀ (n : Nat) (s : State), (State.fill n s).schedule = s.schedule
  | 0, _ => rfl
  | n + 1, s => State.fill_schedule n s.fetchNext

/-! ### filled -/

@[simp] theorem State.filled_regs : s.filled.regs = s.regs := by simp [State.filled]
@[simp] theorem State.filled_pc : s.filled.pc = s.pc := by simp [State.filled]
@[simp] theorem State.filled_cpsr : s.filled.cpsr = s.cpsr := by simp [State.filled]
@[simp] theorem State.filled_spsr : s.filled.spsr = s.spsr := by simp [State.filled]
@[simp] theorem State.filled_mem : s.filled.mem = s.mem := by simp [State.filled]
@[simp] theorem State.filled_imem : s.filled.imem = s.imem := by simp [State.filled]
@[simp] theorem State.filled_pins : s.filled.pins = s.pins := by simp [State.filled]
@[simp] theorem State.filled_sys : s.filled.sys = s.sys := by simp [State.filled]
@[simp] theorem State.filled_cop : s.filled.cop = s.cop := by simp [State.filled]
@[simp] theorem State.filled_bus : s.filled.bus = s.bus := by simp [State.filled]
@[simp] theorem State.filled_port : s.filled.port = s.port := by simp [State.filled]
@[simp] theorem State.filled_tap : s.filled.tap = s.tap := by simp [State.filled]
@[simp] theorem State.filled_dbg : s.filled.dbg = s.dbg := by simp [State.filled]
@[simp] theorem State.filled_inReset : s.filled.inReset = s.inReset := by simp [State.filled]
@[simp] theorem State.filled_instrExec : s.filled.instrExec = s.instrExec := by simp [State.filled]
@[simp] theorem State.filled_pass : s.filled.pass = s.pass := by simp [State.filled]
@[simp] theorem State.filled_lateCancel : s.filled.lateCancel = s.lateCancel := by simp [State.filled]
@[simp] theorem State.filled_wrote : s.filled.wrote = s.wrote := by simp [State.filled]
@[simp] theorem State.filled_schedule : s.filled.schedule = s.schedule := by simp [State.filled]

/-! ### begin -/

@[simp] theorem State.begin_regs : s.begin.regs = s.regs := rfl
@[simp] theorem State.begin_pc : s.begin.pc = s.pc := rfl
@[simp] theorem State.begin_cpsr : s.begin.cpsr = s.cpsr := rfl
@[simp] theorem State.begin_spsr : s.begin.spsr = s.spsr := rfl
@[simp] theorem State.begin_mem : s.begin.mem = s.mem := rfl
@[simp] theorem State.begin_imem : s.begin.imem = s.imem := rfl
@[simp] theorem State.begin_pins : s.begin.pins = s.pins := rfl
@[simp] theorem State.begin_sys : s.begin.sys = s.sys := rfl
@[simp] theorem State.begin_cop : s.begin.cop = s.cop := rfl
@[simp] theorem State.begin_bus : s.begin.bus = s.bus := rfl
@[simp] theorem State.begin_port : s.begin.port = s.port.retained := rfl
@[simp] theorem State.begin_ice : s.begin.ice = s.ice := rfl
@[simp] theorem State.begin_tap : s.begin.tap = s.tap := rfl
@[simp] theorem State.begin_dbg : s.begin.dbg = s.dbg := rfl
@[simp] theorem State.begin_inReset : s.begin.inReset = s.inReset := rfl
@[simp] theorem State.begin_instrExec : s.begin.instrExec = s.instrExec := rfl
@[simp] theorem State.begin_pass : s.begin.pass = false := rfl
@[simp] theorem State.begin_lateCancel : s.begin.lateCancel = false := rfl
@[simp] theorem State.begin_wrote : s.begin.wrote = [] := rfl
@[simp] theorem State.begin_draws : s.begin.draws = s.draws := rfl
@[simp] theorem State.begin_schedule : s.begin.schedule = s.schedule := rfl

/-! ### showed -/

@[simp] theorem State.showed_regs (e : BusEvent) : (s.showed e).regs = s.regs := rfl
@[simp] theorem State.showed_pc (e : BusEvent) : (s.showed e).pc = s.pc := rfl
@[simp] theorem State.showed_cpsr (e : BusEvent) : (s.showed e).cpsr = s.cpsr := rfl
@[simp] theorem State.showed_spsr (e : BusEvent) : (s.showed e).spsr = s.spsr := rfl
@[simp] theorem State.showed_mem (e : BusEvent) : (s.showed e).mem = s.mem := rfl
@[simp] theorem State.showed_imem (e : BusEvent) : (s.showed e).imem = s.imem := rfl
@[simp] theorem State.showed_pins (e : BusEvent) : (s.showed e).pins = s.pins := rfl
@[simp] theorem State.showed_sys (e : BusEvent) : (s.showed e).sys = s.sys := rfl
@[simp] theorem State.showed_cop (e : BusEvent) : (s.showed e).cop = s.cop := rfl
@[simp] theorem State.showed_bus (e : BusEvent) : (s.showed e).bus = s.bus := rfl
@[simp] theorem State.showed_port (e : BusEvent) : (s.showed e).port = ⟨some e, false, false, false⟩ := rfl
@[simp] theorem State.showed_pipe (e : BusEvent) : (s.showed e).pipe = s.pipe := rfl
@[simp] theorem State.showed_ice (e : BusEvent) : (s.showed e).ice = s.ice := rfl
@[simp] theorem State.showed_tap (e : BusEvent) : (s.showed e).tap = s.tap := rfl
@[simp] theorem State.showed_dbg (e : BusEvent) : (s.showed e).dbg = s.dbg := rfl
@[simp] theorem State.showed_inReset (e : BusEvent) : (s.showed e).inReset = s.inReset := rfl
@[simp] theorem State.showed_instrExec (e : BusEvent) : (s.showed e).instrExec = s.instrExec := rfl
@[simp] theorem State.showed_pass (e : BusEvent) : (s.showed e).pass = s.pass := rfl
@[simp] theorem State.showed_lateCancel (e : BusEvent) : (s.showed e).lateCancel = s.lateCancel := rfl
@[simp] theorem State.showed_wrote (e : BusEvent) : (s.showed e).wrote = s.wrote := rfl
@[simp] theorem State.showed_draws (e : BusEvent) : (s.showed e).draws = s.draws := rfl
@[simp] theorem State.showed_schedule (e : BusEvent) : (s.showed e).schedule = s.schedule := rfl

/-! ### othersAct -/

@[simp] theorem State.othersAct_regs : s.othersAct.regs = s.regs := by unfold State.othersAct; split <;> rfl
@[simp] theorem State.othersAct_pc : s.othersAct.pc = s.pc := by unfold State.othersAct; split <;> rfl
@[simp] theorem State.othersAct_cpsr : s.othersAct.cpsr = s.cpsr := by unfold State.othersAct; split <;> rfl
@[simp] theorem State.othersAct_spsr : s.othersAct.spsr = s.spsr := by unfold State.othersAct; split <;> rfl
@[simp] theorem State.othersAct_imem : s.othersAct.imem = s.imem := by unfold State.othersAct; split <;> rfl
@[simp] theorem State.othersAct_pins : s.othersAct.pins = s.pins := by unfold State.othersAct; split <;> rfl
@[simp] theorem State.othersAct_cop : s.othersAct.cop = s.cop := by unfold State.othersAct; split <;> rfl
@[simp] theorem State.othersAct_bus : s.othersAct.bus = s.bus := by unfold State.othersAct; split <;> rfl
@[simp] theorem State.othersAct_port : s.othersAct.port = s.port := by unfold State.othersAct; split <;> rfl
@[simp] theorem State.othersAct_pipe : s.othersAct.pipe = s.pipe := by unfold State.othersAct; split <;> rfl
@[simp] theorem State.othersAct_ice : s.othersAct.ice = s.ice := by unfold State.othersAct; split <;> rfl
@[simp] theorem State.othersAct_tap : s.othersAct.tap = s.tap := by unfold State.othersAct; split <;> rfl
@[simp] theorem State.othersAct_dbg : s.othersAct.dbg = s.dbg := by unfold State.othersAct; split <;> rfl
@[simp] theorem State.othersAct_inReset : s.othersAct.inReset = s.inReset := by unfold State.othersAct; split <;> rfl
@[simp] theorem State.othersAct_instrExec : s.othersAct.instrExec = s.instrExec := by unfold State.othersAct; split <;> rfl
@[simp] theorem State.othersAct_pass : s.othersAct.pass = s.pass := by unfold State.othersAct; split <;> rfl
@[simp] theorem State.othersAct_lateCancel : s.othersAct.lateCancel = s.lateCancel := by unfold State.othersAct; split <;> rfl
@[simp] theorem State.othersAct_wrote : s.othersAct.wrote = s.wrote := by unfold State.othersAct; split <;> rfl
@[simp] theorem State.othersAct_draws : s.othersAct.draws = s.draws := by unfold State.othersAct; split <;> rfl
@[simp] theorem State.othersAct_schedule : s.othersAct.schedule = s.schedule := by unfold State.othersAct; split <;> rfl

/-! ### nextWord -/

@[simp] theorem State.nextWord_regs : s.nextWord.regs = s.regs := rfl
@[simp] theorem State.nextWord_pc : s.nextWord.pc = s.pc := rfl
@[simp] theorem State.nextWord_cpsr : s.nextWord.cpsr = s.cpsr := rfl
@[simp] theorem State.nextWord_spsr : s.nextWord.spsr = s.spsr := rfl
@[simp] theorem State.nextWord_mem : s.nextWord.mem = s.mem := rfl
@[simp] theorem State.nextWord_imem : s.nextWord.imem = s.imem := rfl
@[simp] theorem State.nextWord_pins : s.nextWord.pins = s.pins := rfl
@[simp] theorem State.nextWord_sys : s.nextWord.sys = s.sys := rfl
@[simp] theorem State.nextWord_cop : s.nextWord.cop = s.cop := rfl
@[simp] theorem State.nextWord_bus : s.nextWord.bus = s.bus := rfl
@[simp] theorem State.nextWord_port : s.nextWord.port = s.port := rfl
@[simp] theorem State.nextWord_pipe : s.nextWord.pipe = s.pipe := rfl
@[simp] theorem State.nextWord_ice : s.nextWord.ice = s.ice := rfl
@[simp] theorem State.nextWord_tap : s.nextWord.tap = s.tap := rfl
@[simp] theorem State.nextWord_inReset : s.nextWord.inReset = s.inReset := rfl
@[simp] theorem State.nextWord_instrExec : s.nextWord.instrExec = s.instrExec := rfl
@[simp] theorem State.nextWord_pass : s.nextWord.pass = s.pass := rfl
@[simp] theorem State.nextWord_lateCancel : s.nextWord.lateCancel = s.lateCancel := rfl
@[simp] theorem State.nextWord_wrote : s.nextWord.wrote = s.wrote := rfl
@[simp] theorem State.nextWord_draws : s.nextWord.draws = s.draws := rfl
@[simp] theorem State.nextWord_schedule : s.nextWord.schedule = s.schedule := rfl

/-! ### enterDebug -/

@[simp] theorem State.enterDebug_regs (c : DebugCause) : (s.enterDebug c).regs = s.regs := by simp [State.enterDebug]
@[simp] theorem State.enterDebug_pc (c : DebugCause) : (s.enterDebug c).pc = s.debugPc := by simp [State.enterDebug]
@[simp] theorem State.enterDebug_cpsr (c : DebugCause) : (s.enterDebug c).cpsr = s.cpsr := by simp [State.enterDebug]
@[simp] theorem State.enterDebug_spsr (c : DebugCause) : (s.enterDebug c).spsr = s.spsr := by simp [State.enterDebug]
@[simp] theorem State.enterDebug_mem (c : DebugCause) : (s.enterDebug c).mem = s.mem := by simp [State.enterDebug]
@[simp] theorem State.enterDebug_imem (c : DebugCause) : (s.enterDebug c).imem = s.imem := by simp [State.enterDebug]
@[simp] theorem State.enterDebug_pins (c : DebugCause) : (s.enterDebug c).pins = s.pins.forgotten := by simp [State.enterDebug]
@[simp] theorem State.enterDebug_sys (c : DebugCause) : (s.enterDebug c).sys = s.sys := by simp [State.enterDebug]
@[simp] theorem State.enterDebug_bus (c : DebugCause) : (s.enterDebug c).bus = s.bus := by simp [State.enterDebug]
@[simp] theorem State.enterDebug_port (c : DebugCause) : (s.enterDebug c).port = s.port.retained := by simp [State.enterDebug]
@[simp] theorem State.enterDebug_pipe (c : DebugCause) : (s.enterDebug c).pipe = Pipe.clear := by simp [State.enterDebug]
@[simp] theorem State.enterDebug_ice (c : DebugCause) : (s.enterDebug c).ice = s.ice := by simp [State.enterDebug]
@[simp] theorem State.enterDebug_tap (c : DebugCause) : (s.enterDebug c).tap = s.tap := by simp [State.enterDebug]
@[simp] theorem State.enterDebug_inReset (c : DebugCause) : (s.enterDebug c).inReset = s.inReset := by simp [State.enterDebug]
@[simp] theorem State.enterDebug_instrExec (c : DebugCause) : (s.enterDebug c).instrExec = false := by simp [State.enterDebug]
@[simp] theorem State.enterDebug_pass (c : DebugCause) : (s.enterDebug c).pass = false := by simp [State.enterDebug]
@[simp] theorem State.enterDebug_lateCancel (c : DebugCause) : (s.enterDebug c).lateCancel = false := by simp [State.enterDebug]
@[simp] theorem State.enterDebug_wrote (c : DebugCause) : (s.enterDebug c).wrote = [] := by simp [State.enterDebug]
@[simp] theorem State.enterDebug_draws (c : DebugCause) : (s.enterDebug c).draws = s.draws + 1 := by simp [State.enterDebug]
@[simp] theorem State.enterDebug_schedule (c : DebugCause) : (s.enterDebug c).schedule = s.schedule := by simp [State.enterDebug]

/-! ### leaveDebug -/

@[simp] theorem State.leaveDebug_regs : s.leaveDebug.regs = s.regs := rfl
@[simp] theorem State.leaveDebug_pc : s.leaveDebug.pc = s.pc := rfl
@[simp] theorem State.leaveDebug_cpsr : s.leaveDebug.cpsr = s.cpsr := rfl
@[simp] theorem State.leaveDebug_spsr : s.leaveDebug.spsr = s.spsr := rfl
@[simp] theorem State.leaveDebug_mem : s.leaveDebug.mem = s.mem := rfl
@[simp] theorem State.leaveDebug_imem : s.leaveDebug.imem = s.imem := rfl
@[simp] theorem State.leaveDebug_pins : s.leaveDebug.pins = s.pins.forgotten := rfl
@[simp] theorem State.leaveDebug_sys : s.leaveDebug.sys = s.sys := rfl
@[simp] theorem State.leaveDebug_cop : s.leaveDebug.cop = s.cop := rfl
@[simp] theorem State.leaveDebug_bus : s.leaveDebug.bus = s.bus := rfl
@[simp] theorem State.leaveDebug_port : s.leaveDebug.port = s.port := rfl
@[simp] theorem State.leaveDebug_pipe : s.leaveDebug.pipe = { Pipe.clear with ackFetches := 3 } := rfl
@[simp] theorem State.leaveDebug_ice : s.leaveDebug.ice = s.ice := rfl
@[simp] theorem State.leaveDebug_inReset : s.leaveDebug.inReset = s.inReset := rfl
@[simp] theorem State.leaveDebug_instrExec : s.leaveDebug.instrExec = s.instrExec := rfl
@[simp] theorem State.leaveDebug_pass : s.leaveDebug.pass = s.pass := rfl
@[simp] theorem State.leaveDebug_lateCancel : s.leaveDebug.lateCancel = s.lateCancel := rfl
@[simp] theorem State.leaveDebug_wrote : s.leaveDebug.wrote = s.wrote := rfl
@[simp] theorem State.leaveDebug_draws : s.leaveDebug.draws = s.draws := rfl
@[simp] theorem State.leaveDebug_schedule : s.leaveDebug.schedule = s.schedule := rfl

/-! ### busWrite -/

@[simp] theorem State.busWrite_regs (a : Word) (v : Byte) : (s.busWrite a v).regs = s.regs := rfl
@[simp] theorem State.busWrite_pc (a : Word) (v : Byte) : (s.busWrite a v).pc = s.pc := rfl
@[simp] theorem State.busWrite_cpsr (a : Word) (v : Byte) : (s.busWrite a v).cpsr = s.cpsr := rfl
@[simp] theorem State.busWrite_spsr (a : Word) (v : Byte) : (s.busWrite a v).spsr = s.spsr := rfl
@[simp] theorem State.busWrite_mem (a : Word) (v : Byte) : (s.busWrite a v).mem = Memory.write s.mem a.toNat v := rfl
@[simp] theorem State.busWrite_imem (a : Word) (v : Byte) : (s.busWrite a v).imem = s.imem := rfl
@[simp] theorem State.busWrite_pins (a : Word) (v : Byte) : (s.busWrite a v).pins = s.pins := rfl
@[simp] theorem State.busWrite_sys (a : Word) (v : Byte) : (s.busWrite a v).sys = s.sys := rfl
@[simp] theorem State.busWrite_cop (a : Word) (v : Byte) : (s.busWrite a v).cop = s.cop := rfl
@[simp] theorem State.busWrite_bus (a : Word) (v : Byte) : (s.busWrite a v).bus = s.bus := rfl
@[simp] theorem State.busWrite_port (a : Word) (v : Byte) : (s.busWrite a v).port = s.port := rfl
@[simp] theorem State.busWrite_pipe (a : Word) (v : Byte) : (s.busWrite a v).pipe = s.pipe := rfl
@[simp] theorem State.busWrite_ice (a : Word) (v : Byte) : (s.busWrite a v).ice = s.ice := rfl
@[simp] theorem State.busWrite_tap (a : Word) (v : Byte) : (s.busWrite a v).tap = s.tap := rfl
@[simp] theorem State.busWrite_dbg (a : Word) (v : Byte) : (s.busWrite a v).dbg = s.dbg := rfl
@[simp] theorem State.busWrite_inReset (a : Word) (v : Byte) : (s.busWrite a v).inReset = s.inReset := rfl
@[simp] theorem State.busWrite_instrExec (a : Word) (v : Byte) : (s.busWrite a v).instrExec = s.instrExec := rfl
@[simp] theorem State.busWrite_pass (a : Word) (v : Byte) : (s.busWrite a v).pass = s.pass := rfl
@[simp] theorem State.busWrite_lateCancel (a : Word) (v : Byte) : (s.busWrite a v).lateCancel = s.lateCancel := rfl
@[simp] theorem State.busWrite_wrote (a : Word) (v : Byte) : (s.busWrite a v).wrote = s.wrote := rfl
@[simp] theorem State.busWrite_draws (a : Word) (v : Byte) : (s.busWrite a v).draws = s.draws := rfl
@[simp] theorem State.busWrite_schedule (a : Word) (v : Byte) : (s.busWrite a v).schedule = s.schedule := rfl

/-! ### codeWrite -/

@[simp] theorem State.codeWrite_regs (a : Word) (v : Byte) : (s.codeWrite a v).regs = s.regs := rfl
@[simp] theorem State.codeWrite_pc (a : Word) (v : Byte) : (s.codeWrite a v).pc = s.pc := rfl
@[simp] theorem State.codeWrite_cpsr (a : Word) (v : Byte) : (s.codeWrite a v).cpsr = s.cpsr := rfl
@[simp] theorem State.codeWrite_spsr (a : Word) (v : Byte) : (s.codeWrite a v).spsr = s.spsr := rfl
@[simp] theorem State.codeWrite_mem (a : Word) (v : Byte) : (s.codeWrite a v).mem = s.mem := rfl
@[simp] theorem State.codeWrite_imem (a : Word) (v : Byte) : (s.codeWrite a v).imem = Memory.write s.imem a.toNat v := rfl
@[simp] theorem State.codeWrite_pins (a : Word) (v : Byte) : (s.codeWrite a v).pins = s.pins := rfl
@[simp] theorem State.codeWrite_sys (a : Word) (v : Byte) : (s.codeWrite a v).sys = s.sys := rfl
@[simp] theorem State.codeWrite_cop (a : Word) (v : Byte) : (s.codeWrite a v).cop = s.cop := rfl
@[simp] theorem State.codeWrite_bus (a : Word) (v : Byte) : (s.codeWrite a v).bus = s.bus := rfl
@[simp] theorem State.codeWrite_port (a : Word) (v : Byte) : (s.codeWrite a v).port = s.port := rfl
@[simp] theorem State.codeWrite_pipe (a : Word) (v : Byte) : (s.codeWrite a v).pipe = s.pipe := rfl
@[simp] theorem State.codeWrite_ice (a : Word) (v : Byte) : (s.codeWrite a v).ice = s.ice := rfl
@[simp] theorem State.codeWrite_tap (a : Word) (v : Byte) : (s.codeWrite a v).tap = s.tap := rfl
@[simp] theorem State.codeWrite_dbg (a : Word) (v : Byte) : (s.codeWrite a v).dbg = s.dbg := rfl
@[simp] theorem State.codeWrite_inReset (a : Word) (v : Byte) : (s.codeWrite a v).inReset = s.inReset := rfl
@[simp] theorem State.codeWrite_instrExec (a : Word) (v : Byte) : (s.codeWrite a v).instrExec = s.instrExec := rfl
@[simp] theorem State.codeWrite_pass (a : Word) (v : Byte) : (s.codeWrite a v).pass = s.pass := rfl
@[simp] theorem State.codeWrite_lateCancel (a : Word) (v : Byte) : (s.codeWrite a v).lateCancel = s.lateCancel := rfl
@[simp] theorem State.codeWrite_wrote (a : Word) (v : Byte) : (s.codeWrite a v).wrote = s.wrote := rfl
@[simp] theorem State.codeWrite_draws (a : Word) (v : Byte) : (s.codeWrite a v).draws = s.draws := rfl
@[simp] theorem State.codeWrite_schedule (a : Word) (v : Byte) : (s.codeWrite a v).schedule = s.schedule := rfl

/-! ### afterStep -/

@[simp] theorem State.afterStep_regs : s.afterStep.regs = s.regs := by unfold State.afterStep; split <;> rfl
@[simp] theorem State.afterStep_pc : s.afterStep.pc = s.pc := by unfold State.afterStep; split <;> rfl
@[simp] theorem State.afterStep_cpsr : s.afterStep.cpsr = s.cpsr := by unfold State.afterStep; split <;> rfl
@[simp] theorem State.afterStep_spsr : s.afterStep.spsr = s.spsr := by unfold State.afterStep; split <;> rfl
@[simp] theorem State.afterStep_mem : s.afterStep.mem = s.mem := by unfold State.afterStep; split <;> rfl
@[simp] theorem State.afterStep_imem : s.afterStep.imem = s.imem := by unfold State.afterStep; split <;> rfl
@[simp] theorem State.afterStep_pins : s.afterStep.pins = s.pins := by unfold State.afterStep; split <;> rfl
@[simp] theorem State.afterStep_sys : s.afterStep.sys = s.sys := by unfold State.afterStep; split <;> rfl
@[simp] theorem State.afterStep_cop : s.afterStep.cop = s.cop := by unfold State.afterStep; split <;> rfl
@[simp] theorem State.afterStep_bus : s.afterStep.bus = s.bus := by unfold State.afterStep; split <;> rfl
@[simp] theorem State.afterStep_port : s.afterStep.port = s.port := by unfold State.afterStep; split <;> rfl
@[simp] theorem State.afterStep_pipe : s.afterStep.pipe = s.pipe := by unfold State.afterStep; split <;> rfl
@[simp] theorem State.afterStep_ice : s.afterStep.ice = s.ice := by unfold State.afterStep; split <;> rfl
@[simp] theorem State.afterStep_tap : s.afterStep.tap = s.tap := by unfold State.afterStep; split <;> rfl
@[simp] theorem State.afterStep_inReset : s.afterStep.inReset = s.inReset := by unfold State.afterStep; split <;> rfl
@[simp] theorem State.afterStep_instrExec : s.afterStep.instrExec = s.instrExec := by unfold State.afterStep; split <;> rfl
@[simp] theorem State.afterStep_pass : s.afterStep.pass = s.pass := by unfold State.afterStep; split <;> rfl
@[simp] theorem State.afterStep_lateCancel : s.afterStep.lateCancel = s.lateCancel := by unfold State.afterStep; split <;> rfl
@[simp] theorem State.afterStep_wrote : s.afterStep.wrote = s.wrote := by unfold State.afterStep; split <;> rfl
@[simp] theorem State.afterStep_draws : s.afterStep.draws = s.draws := by unfold State.afterStep; split <;> rfl
@[simp] theorem State.afterStep_schedule : s.afterStep.schedule = s.schedule := by unfold State.afterStep; split <;> rfl

/-! ### sampled -/

@[simp] theorem State.sampled_regs : s.sampled.regs = s.regs := by unfold State.sampled; split <;> rfl
@[simp] theorem State.sampled_pc : s.sampled.pc = s.pc := by unfold State.sampled; split <;> rfl
@[simp] theorem State.sampled_cpsr : s.sampled.cpsr = s.cpsr := by unfold State.sampled; split <;> rfl
@[simp] theorem State.sampled_spsr : s.sampled.spsr = s.spsr := by unfold State.sampled; split <;> rfl
@[simp] theorem State.sampled_mem : s.sampled.mem = s.mem := by unfold State.sampled; split <;> rfl
@[simp] theorem State.sampled_imem : s.sampled.imem = s.imem := by unfold State.sampled; split <;> rfl
@[simp] theorem State.sampled_sys : s.sampled.sys = s.sys := by unfold State.sampled; split <;> rfl
@[simp] theorem State.sampled_cop : s.sampled.cop = s.cop := by unfold State.sampled; split <;> rfl
@[simp] theorem State.sampled_bus : s.sampled.bus = s.bus := by unfold State.sampled; split <;> rfl
@[simp] theorem State.sampled_port : s.sampled.port = s.port := by unfold State.sampled; split <;> rfl
@[simp] theorem State.sampled_pipe : s.sampled.pipe = s.pipe := by unfold State.sampled; split <;> rfl
@[simp] theorem State.sampled_ice : s.sampled.ice = s.ice := by unfold State.sampled; split <;> rfl
@[simp] theorem State.sampled_tap : s.sampled.tap = s.tap := by unfold State.sampled; split <;> rfl
@[simp] theorem State.sampled_dbg : s.sampled.dbg = s.dbg := by unfold State.sampled; split <;> rfl
@[simp] theorem State.sampled_inReset : s.sampled.inReset = s.inReset := by unfold State.sampled; split <;> rfl
@[simp] theorem State.sampled_instrExec : s.sampled.instrExec = s.instrExec := by unfold State.sampled; split <;> rfl
@[simp] theorem State.sampled_pass : s.sampled.pass = s.pass := by unfold State.sampled; split <;> rfl
@[simp] theorem State.sampled_lateCancel : s.sampled.lateCancel = s.lateCancel := by unfold State.sampled; split <;> rfl
@[simp] theorem State.sampled_wrote : s.sampled.wrote = s.wrote := by unfold State.sampled; split <;> rfl
@[simp] theorem State.sampled_schedule : s.sampled.schedule = s.schedule := by unfold State.sampled; split <;> rfl

end Sys2Proof.Machine
end

