-- ==== Sys2Proof/Laws/Ops.lean ====
section
/-!
SUPPORT. One lemma per shared operation that says what it can do: the register file, the guards, single accesses, exception entry
and return. Provers cite these and unfold no operation.
-/

namespace Sys2Proof.Machine

/-! ## The register file -/

/-- Two registers of one mode, R15 apart, share a cell only if they are the same register (10_state.md R40). -/
theorem bankIndex_inj : ∀ (m : BitVec 5) (r r' : Reg), r ≠ 15#4 → r' ≠ 15#4 → bankIndex m r = bankIndex m r' → r = r' := by
  decide +kernel

/-- The cells of User and System mode are the first fifteen. -/
theorem bankIndex_usr_lt : ∀ r : Reg, r ≠ 15#4 → (bankIndex usrMode r).val < 15 := by decide

@[simp] theorem State.regs_setBankReg (s : State) (m : BitVec 5) (r : Reg) (v : Word) (h : r ≠ 15#4) :
    (s.setBankReg m r v).regs = s.regs.set (bankIndex m r) v := by simp [State.setBankReg, h]

/-- Reading a cell after writing a register. -/
theorem State.get_setBankReg (s : State) (m : BitVec 5) (r : Reg) (v : Word) (k : Fin 30) :
    (s.setBankReg m r v).regs.get k = if r ≠ 15#4 ∧ bankIndex m r = k then v else s.regs.get k := by
  by_cases h : r = 15#4
  · simp [State.setBankReg, h]
  · rw [State.setBankReg, if_neg h]
    simp only [Vector.get_eq_getElem, Vector.getElem_set, Fin.ext_iff, ne_eq, h, not_false_eq_true, true_and]

@[simp] theorem State.bankReg_setBankReg_same (s : State) (m : BitVec 5) (r : Reg) (v : Word) (h : r ≠ 15#4) :
    (s.setBankReg m r v).bankReg m r = v := by
  rw [State.bankReg, State.get_setBankReg, if_pos ⟨h, rfl⟩]

theorem State.bankReg_setBankReg_ne (s : State) (m : BitVec 5) (r r' : Reg) (v : Word) (h : r' ≠ 15#4) (hne : r' ≠ r) :
    (s.setBankReg m r v).bankReg m r' = s.bankReg m r' := by
  unfold State.bankReg
  rw [State.get_setBankReg, if_neg]
  rintro ⟨hr, he⟩
  exact hne (bankIndex_inj m r' r h hr he.symm)

@[simp] theorem State.bankReg_setReg_same (s : State) (r : Reg) (v : Word) (h : r ≠ 15#4) :
    (s.setReg r v).bankReg s.mode r = v := State.bankReg_setBankReg_same s _ r v h

/-- Writing a register changes only its own cell. -/
theorem OnlyRegs.setBankReg (s : State) (m : BitVec 5) (r : Reg) (v : Word) : OnlyRegs m [r] s (s.setBankReg m r v) := by
  intro k hk
  rw [State.get_setBankReg, if_neg]
  rintro ⟨h, he⟩
  exact hk r List.mem_cons_self h he

theorem OnlyRegs.setReg (s : State) (r : Reg) (v : Word) : OnlyRegs s.mode [r] s (s.setReg r v) := OnlyRegs.setBankReg s _ r v

/-- Registers that are equal as data change nowhere. -/
theorem OnlyRegs.of_eq {m : BitVec 5} {rs : List Reg} {s t : State} (h : t.regs = s.regs) : OnlyRegs m rs s t :=
  fun k _ => by rw [h]

theorem OnlyRegs.mono {m : BitVec 5} {rs rs' : List Reg} {s t : State} (h : OnlyRegs m rs s t) (hs : ∀ r ∈ rs, r ∈ rs') :
    OnlyRegs m rs' s t := fun k hk => h k fun r hr => hk r (hs r hr)

theorem OnlyRegs.trans {m : BitVec 5} {rs : List Reg} {s t u : State} (h : OnlyRegs m rs s t) (h' : OnlyRegs m rs t u) :
    OnlyRegs m rs s u := fun k hk => (h' k hk).trans (h k hk)

/-! ## What the INSTREXEC output does not touch -/

section
variable (s : State) (b : Bool)
@[simp] theorem State.executed_mode : (s.executed b).mode = s.mode := rfl
@[simp] theorem State.executed_reg (r : Reg) : (s.executed b).reg r = s.reg r := rfl
@[simp] theorem State.executed_bankReg (m : BitVec 5) (r : Reg) : (s.executed b).bankReg m r = s.bankReg m r := rfl
@[simp] theorem State.executed_storedReg (r : Reg) : (s.executed b).storedReg r = s.storedReg r := rfl
@[simp] theorem State.executed_pcOperand : (s.executed b).pcOperand = s.pcOperand := rfl
@[simp] theorem State.executed_width : (s.executed b).width = s.width := rfl
@[simp] theorem State.executed_spsrOf (m : BitVec 5) : (s.executed b).spsrOf m = s.spsrOf m := rfl
@[simp] theorem op2Imm_executed (o : RotImm) : op2Imm (s.executed b) o = op2Imm s o := rfl
@[simp] theorem op2ShiftImm_executed (o : ShiftImm) : op2ShiftImm (s.executed b) o = op2ShiftImm s o := rfl
@[simp] theorem op2ShiftReg_executed (o : ShiftReg) : op2ShiftReg (s.executed b) o = op2ShiftReg s o := rfl
end

/-! ## The guards -/

/-- An ARM instruction that runs runs its body. -/
theorem armGuard_runs {c : Cond} {i : Instr} {s : State} {body : State → Result} (hc : Instr.cond i = some c) (h : Runs i s) :
    armGuard c i s body = body (s.executed true) := by
  obtain ⟨hd, hp⟩ := h
  have hn : c ≠ .nv := by
    rintro rfl
    simp [Instr.defect, hc] at hd
  have hd' : firstDefect (Instr.checks i) = none := by simpa [Instr.defect, hc, hn] using hd
  have hp' : conditionPassed c s.cpsr = true := by simpa [passes, hc] using hp
  simp [armGuard, hn, hd', hp']

/-- A Thumb instruction that runs runs its body. -/
theorem thumbGuard_runs {i : Instr} {s : State} {body : State → Result} (hc : Instr.cond i = none) (h : Runs i s) :
    thumbGuard i s body = body (s.executed true) := by
  obtain ⟨hd, -⟩ := h
  have hd' : firstDefect (Instr.checks i) = none := by simpa [Instr.defect, hc] using hd
  simp [thumbGuard, hd']

/-- An ARM instruction whose condition fails only advances the PC. -/
theorem armGuard_fails {c : Cond} {i : Instr} {s : State} {body : State → Result} (hn : c ≠ .nv)
    (h : conditionPassed c s.cpsr = false) : armGuard c i s body = .next (s.executed false).advance := by
  simp [armGuard, hn, h]

/-- When a guarded ARM instruction answers a next state, its condition failed or its body answered it. -/
theorem armGuard_next {c : Cond} {i : Instr} {s t : State} {body : State → Result} (h : armGuard c i s body = .next t) :
    t = (s.executed false).advance ∨ body (s.executed true) = .next t := by
  unfold armGuard at h
  split at h
  · cases h
  · split at h
    · left; cases h; rfl
    · split at h
      · cases h
      · exact .inr h

/-- When a guarded Thumb instruction answers a next state, its body answered it. -/
theorem thumbGuard_next {i : Instr} {s t : State} {body : State → Result} (h : thumbGuard i s body = .next t) :
    body (s.executed true) = .next t := by
  unfold thumbGuard at h
  split at h
  · cases h
  · exact h

/-! ## Single accesses -/

/-- A read that reaches memory. -/
theorem State.readData_ok {s : State} {a : Word} {size : Size} {user : Bool} {b : Beat} (h : Readable s a size user) :
    s.readData a size user b =
      (some (s.busRead size a),
        s.spend.accessed (s.event a size false (s.busRead size a) user b) (busWordAt s.pins.bigend s.mem a)) := by
  obtain ⟨h1, h2, h3⟩ := h
  simp [State.readData, State.ddin, h1, h2, h3, State.busRead, State.event]

/-- With no reset on its way, an access uses nothing up. -/
theorem State.spend_eq {s : State} (h : s.sys.budget = none) : s.spend = s := by
  cases s with
  | mk _ _ _ _ _ _ _ sys =>
    cases sys
    simp_all [State.spend]

/-- An answer with an abort opens the data of a read. -/
theorem MemAnswer.opens_of_aborts {x : MemAnswer} (h : x.aborts = true) : x.opens = true := by
  cases x <;> simp_all [MemAnswer.aborts, MemAnswer.opens]

/-- Whether an access aborts, by its rule. -/
theorem State.dataAborts_iff {s : State} {a : Word} {size : Size} {write user : Bool} :
    s.dataAborts a size write user = true ↔ ∃ r, s.dataRule a size write user = some r ∧ r.answer.aborts = true := by
  simp [State.dataAborts, Option.any_eq_true]

/-- A read that the memory system aborts: DDIN has a free word. -/
theorem State.readData_abort {s : State} {a : Word} {size : Size} {user : Bool} {b : Beat} (h : Aborts s a size false user) :
    s.readData a size user b =
      (none, s.drawn.accessed ⟨a, size, false, lane s.pins.bigend size a s.freeWord, s.dnTrans user, s.dnMode user, b.lock, true, b.seq, b.more⟩
        s.freeWord) := by
  obtain ⟨h1, h2, h3⟩ := h
  obtain ⟨r, hr, ha⟩ := State.dataAborts_iff.mp h3
  simp [State.readData, State.ddin, h1, h2, hr, ha, MemAnswer.opens_of_aborts ha, State.spend_eq (s := s.drawn) h2]

/-- A write that reaches memory. -/
theorem State.writeData_ok {s : State} {a v : Word} {size : Size} {user : Bool} {b : Beat} (h : Writable s a size user) :
    s.writeData a size v user b false =
      (false, (s.accessed (s.event a size true (ddCopies size v) user b) (ddCopies size v)).storeMem
        (storeBytes s.pins.bigend size a v)) := by
  obtain ⟨h1, h2, h3⟩ := h
  simp [State.writeData, h1, h2, h3, State.event, State.spend_eq h2]

/-- A write that the memory system aborts: memory changes only where the rule says it does. -/
theorem State.writeData_abort {s : State} {a v : Word} {size : Size} {user late : Bool} {b : Beat} {r : MemRule}
    (h1 : s.debugSpeed = false) (h2 : s.sys.budget = none) (h3 : s.dataRule a size true user = some r)
    (h4 : r.answer.aborts = true) :
    s.writeData a size v user b late =
      (true,
        let s' := s.accessed ⟨a, size, true, ddCopies size v, s.dnTrans user, s.dnMode user, b.lock, true, b.seq, b.more⟩ (ddCopies size v)
        if r.answer.lands then s'.storeMem (storeBytes s.pins.bigend size a v) else s') := by
  simp [State.writeData, h1, h2, h3, h4, State.spend_eq h2]

/-! ## Exceptions -/

/-- The bank of an exception's mode has an SPSR of its own. -/
theorem Exc.spsrIndex_isSome : ∀ e : Exc, ∃ k, spsrIndex e.mode = some k := by
  intro e; cases e <;> exact ⟨_, rfl⟩

theorem enterCpsr_mode (p : Word) (e : Exc) : modeOf (enterCpsr p e) = e.mode := by
  unfold modeOf enterCpsr
  exact BitVec.extractLsb'_append_eq_right

end Sys2Proof.Machine
end

