-- ==== Sys2Proof/Laws/Arith.lean ====
section
/-!
SUPPORT. One lemma per shared body of the register-only instructions: when an instruction's meaning is that body, this is all it
does.
-/

namespace Sys2Proof.Machine

/-! ## Frames -/

theorem SameOutside.rfl' (s : State) : SameOutside s s := ⟨rfl, rfl, rfl, rfl, rfl, rfl, rfl, rfl, rfl, rfl, rfl, rfl, rfl⟩

/-- Writing a register, the CPSR, the PC or a free value leaves the rest of the machine alone. -/
theorem sameOutside_setReg_advance (s : State) (r : Reg) (v : Word) :
    SameOutside s ((s.executed true).setReg r v).advance := by
  simp [SameOutside]

theorem width_of_cpsr {s t : State} (h : bitT t.cpsr = bitT s.cpsr) : t.width = s.width := by
  simp [State.width, h]

@[simp] theorem State.setReg_width (s : State) (r : Reg) (v : Word) : (s.setReg r v).width = s.width := by
  simp [State.width]

@[simp] theorem State.setBankReg_width (s : State) (m : BitVec 5) (r : Reg) (v : Word) :
    (s.setBankReg m r v).width = s.width := by simp [State.width]

@[simp] theorem State.setFlags_width (s : State) (o : AluOut) : (s.setFlags o).width = s.width := by
  simp [State.width]

@[simp] theorem State.drawn_width (s : State) : s.drawn.width = s.width := rfl

@[simp] theorem State.setReg_mode (s : State) (r : Reg) (v : Word) : (s.setReg r v).mode = s.mode := by
  simp [State.mode]

@[simp] theorem State.setFlags_mode (s : State) (o : AluOut) : (s.setFlags o).mode = s.mode := by simp [State.mode]

/-- A register as it reads depends on the file, the PC and the CPSR only. -/
theorem bankReg_of_regs {s t : State} (h : t.regs = s.regs) (m : BitVec 5) (r : Reg) : t.bankReg m r = s.bankReg m r := by
  simp [State.bankReg, h]

@[simp] theorem State.bankReg_advance (s : State) (m : BitVec 5) (r : Reg) : s.advance.bankReg m r = s.bankReg m r := rfl
@[simp] theorem State.bankReg_setFlags (s : State) (o : AluOut) (m : BitVec 5) (r : Reg) :
    (s.setFlags o).bankReg m r = s.bankReg m r := rfl
@[simp] theorem State.bankReg_setCpsr (s : State) (p : Word) (m : BitVec 5) (r : Reg) :
    (s.setCpsr p).bankReg m r = s.bankReg m r := rfl
@[simp] theorem State.bankReg_drawn (s : State) (m : BitVec 5) (r : Reg) : s.drawn.bankReg m r = s.bankReg m r := rfl
@[simp] theorem State.bankReg_branchTo (s : State) (a : Word) (m : BitVec 5) (r : Reg) :
    (s.branchTo a).bankReg m r = s.bankReg m r := rfl

/-- Writing register `rd` of the running mode, seen from the state before the instruction. -/
theorem bankReg_setReg_executed (s : State) (rd : Reg) (v : Word) (h : rd ≠ 15#4) :
    ((s.executed true).setReg rd v).bankReg s.mode rd = v := State.bankReg_setReg_same (s.executed true) rd v h

theorem onlyRegs_of_regs {m : BitVec 5} {rs : List Reg} {s t u : State} (h : OnlyRegs m rs s t) (he : u.regs = t.regs) :
    OnlyRegs m rs s u := fun k hk => by rw [he]; exact h k hk

theorem onlyRegs_from {m : BitVec 5} {rs : List Reg} {s t u : State} (h : OnlyRegs m rs t u) (he : t.regs = s.regs) :
    OnlyRegs m rs s u := fun k hk => by rw [h k hk, he]

/-- The destination of an executed instruction is the only register that changes. -/
theorem onlyRegs_setReg_executed (s : State) (rd : Reg) (v : Word) :
    OnlyRegs s.mode [rd] s ((s.executed true).setReg rd v) := OnlyRegs.setReg (s.executed true) rd v

/-! ## Data processing -/

/-- `dataOp` into a register other than R15. -/
theorem dataOp_done {i : Instr} {s : State} {op : DpOp} {f : Bool} {rd : Reg} {a : Word} {b : Shifted} (hrd : rd ≠ 15#4)
    (hop : op.compares = false) (h : exec i s = dataOp op f rd a b (s.executed true)) :
    DataDone i s op f rd a b.val b.carry := by
  cases f with
  | false =>
    refine ⟨((s.executed true).setReg rd (alu op s.cpsr a b.val b.carry).res).advance, _, ?_,
      alu_result op s.cpsr a b.val b.carry, ?_⟩
    · rw [h]; simp [dataOp, hrd]
    · simp only [hop, Bool.false_eq_true, if_false, Bool.or_self]
      refine ⟨⟨?_, ?_⟩, ?_, ?_, sameOutside_setReg_advance ..⟩
      · rw [State.bankReg_advance, bankReg_setReg_executed _ _ _ hrd]
      · exact onlyRegs_of_regs (onlyRegs_setReg_executed s rd _) rfl
      · simp
      · simp [FallsThrough]
  | true =>
    refine ⟨(((s.executed true).setReg rd (alu op s.cpsr a b.val b.carry).res).setFlags
      (alu op s.cpsr a b.val b.carry)).advance, _, ?_, alu_result op s.cpsr a b.val b.carry, ?_⟩
    · rw [h]; simp [dataOp, hrd]
    · simp only [hop, Bool.false_eq_true, if_false, Bool.true_or, if_true]
      refine ⟨⟨?_, ?_⟩, ?_, ?_, ?_⟩
      · rw [State.bankReg_advance, State.bankReg_setFlags, bankReg_setReg_executed _ _ _ hrd]
      · exact onlyRegs_of_regs (onlyRegs_setReg_executed s rd _) rfl
      · simpa using alu_flags op s.cpsr a b.val b.carry
      · simp [FallsThrough]
      · simp [SameOutside]

/-- `compareOp`. -/
theorem compareOp_done {i : Instr} {s : State} {op : DpOp} {f : Bool} {rd : Reg} {a : Word} {b : Shifted}
    (hop : op.compares = true) (h : exec i s = compareOp op a b (s.executed true)) :
    DataDone i s op f rd a b.val b.carry := by
  refine ⟨((s.executed true).setFlags (alu op s.cpsr a b.val b.carry)).advance, _, ?_,
    alu_result op s.cpsr a b.val b.carry, ?_⟩
  · rw [h]; rfl
  · simp only [hop, if_true, Bool.or_true]
    refine ⟨rfl, ?_, ?_, ?_⟩
    · simpa using alu_flags op s.cpsr a b.val b.carry
    · simp [FallsThrough]
    · simp [SameOutside]

theorem lowReg_ne : ∀ r : LowReg, lowReg r ≠ 15#4 := by decide

/-- `thumbAlu` of an operation. -/
theorem thumbAlu_done {i : Instr} {s : State} {op : DpOp} {rd : LowReg} {a b : Word} {sh : Bool} (hop : op.compares = false)
    (h : exec i s = thumbAlu rd (alu op s.cpsr a b sh) (s.executed true)) : DataDone i s op true (lowReg rd) a b sh := by
  have := dataOp_done (i := i) (s := s) (op := op) (f := true) (rd := lowReg rd) (a := a) (b := ⟨b, sh⟩) (lowReg_ne rd) hop
    (by rw [h]; simp [dataOp, lowReg_ne, thumbAlu])
  exact this

/-- `thumbFlags` of a comparison. -/
theorem thumbFlags_done {i : Instr} {s : State} {op : DpOp} {f : Bool} {rd : Reg} {a b : Word} {sh : Bool}
    (hop : op.compares = true) (h : exec i s = thumbFlags (alu op s.cpsr a b sh) (s.executed true)) :
    DataDone i s op f rd a b sh :=
  compareOp_done (b := ⟨b, sh⟩) hop (by rw [h]; rfl)

/-- `thumbWrite` to a register other than R15. -/
theorem thumbWrite_done {i : Instr} {s : State} {op : DpOp} {rd : Reg} {a b : Word} {sh : Bool} (hrd : rd ≠ 15#4)
    (hop : op.compares = false) (h : exec i s = thumbWrite rd (alu op s.cpsr a b sh).res (s.executed true)) :
    DataDone i s op false rd a b sh :=
  dataOp_done (b := ⟨b, sh⟩) hrd hop (by rw [h]; simp [dataOp, hrd, thumbWrite])

/-- `thumbWrite` to R15. -/
theorem thumbWrite_jump {i : Instr} {s : State} {v : Word} (h : exec i s = thumbWrite 15#4 v (s.executed true)) :
    JumpDone i s (v &&& 0xFFFFFFFE#32) s.cpsr [] := by
  refine ⟨(s.executed true).branchTo (v &&& 0xFFFFFFFE#32), ?_, rfl, rfl, by simp, OnlyRegs.of_eq rfl, SameOutside.rfl' s⟩
  rw [h]; rfl

/-! ## Multiplies -/

/-- `mulOp` with a result that is `n` modulo 2^32. -/
theorem mulOp_done {i : Instr} {s : State} {f : Bool} {rd : Reg} {r : Word} {n : Nat} (hrd : rd ≠ 15#4)
    (hr : r.toNat = n % 2 ^ 32) (h : exec i s = mulOp f rd r (s.executed true)) : MulDone i s f rd n := by
  cases f with
  | false =>
    refine ⟨((s.executed true).setReg rd r).advance, ?_, ?_, ?_, ?_, ?_, sameOutside_setReg_advance ..⟩
    · rw [h]; rfl
    · rw [State.bankReg_advance, bankReg_setReg_executed _ _ _ hrd, hr]
    · exact onlyRegs_of_regs (onlyRegs_setReg_executed s rd r) rfl
    · simp
    · simp [FallsThrough]
  | true =>
    have hz : (r == 0#32) = decide (n % 2 ^ 32 = 0) := by
      rw [← hr, beq_eq_decide]
      apply decide_eq_decide.mpr
      constructor
      · rintro rfl; rfl
      · intro h0; exact BitVec.eq_of_toNat_eq h0
    have hb : ((s.executed true).setReg rd r).bankReg s.mode rd = r := bankReg_setReg_executed s rd r hrd
    refine ⟨((((s.executed true).setReg rd r).setCpsr (mulFlags (s.executed true) r)).drawn).advance, ?_, ?_, ?_, ?_, ?_, ?_⟩
    · rw [h]; rfl
    · simp [hb, hr]
    · exact onlyRegs_of_regs (onlyRegs_setReg_executed s rd r) rfl
    · simp only [if_true, State.advance_cpsr, State.drawn_cpsr, State.setCpsr_cpsr, State.bankReg_advance,
        State.bankReg_drawn, State.bankReg_setCpsr, hb, mulFlags, withNZCV_flagN, withNZCV_flagZ, withNZCV_flagV,
        State.executed_cpsr, hz]
      exact ⟨withNZCV_sameControl .., BitVec.msb_eq_getLsbD_last r, trivial, trivial⟩
    · simp [FallsThrough, State.width, mulFlags]
    · simp [SameOutside]

/-- `mulLongOp` with the 64-bit result `p`. -/
theorem mulLongOp_done {i : Instr} {s : State} {f : Bool} {hi lo : Reg} {p : BitVec 64} (hhi : hi ≠ 15#4) (hlo : lo ≠ 15#4)
    (hne : hi ≠ lo) (h : exec i s = mulLongOp f hi lo p (s.executed true)) : MulLongDone i s f hi lo p := by
  have hp : p.extractLsb' 32 32 ++ p.extractLsb' 0 32 = p := by
    apply BitVec.eq_of_getLsbD_eq
    intro k hk
    rw [BitVec.getLsbD_append]
    split
    · rw [BitVec.getLsbD_extractLsb']; simp; omega
    · rw [BitVec.getLsbD_extractLsb']
      have : 32 + (k - 32) = k := by omega
      rw [this]; simp; omega
  have hb : ∀ t : State, t.regs = (((s.executed true).setReg hi (p.extractLsb' 32 32)).setReg lo (p.extractLsb' 0 32)).regs →
      t.bankReg s.mode hi ++ t.bankReg s.mode lo = p := by
    intro t ht
    rw [bankReg_of_regs ht, bankReg_of_regs ht]
    have e1 : (((s.executed true).setReg hi (p.extractLsb' 32 32)).setReg lo (p.extractLsb' 0 32)).bankReg s.mode lo =
        p.extractLsb' 0 32 := by
      have := State.bankReg_setReg_same ((s.executed true).setReg hi (p.extractLsb' 32 32)) lo (p.extractLsb' 0 32) hlo
      simpa using this
    have e2 : (((s.executed true).setReg hi (p.extractLsb' 32 32)).setReg lo (p.extractLsb' 0 32)).bankReg s.mode hi =
        p.extractLsb' 32 32 := by
      rw [State.setReg, State.setReg_mode, State.executed_mode, State.bankReg_setBankReg_ne _ _ _ _ _ hhi hne]
      exact bankReg_setReg_executed s hi _ hhi
    rw [e1, e2, hp]
  have ho : ∀ t : State, t.regs = (((s.executed true).setReg hi (p.extractLsb' 32 32)).setReg lo (p.extractLsb' 0 32)).regs →
      OnlyRegs s.mode [hi, lo] s t := by
    intro t ht
    refine onlyRegs_of_regs ?_ ht
    refine OnlyRegs.trans ((onlyRegs_setReg_executed s hi (p.extractLsb' 32 32)).mono (by simp)) ?_
    have := OnlyRegs.setReg ((s.executed true).setReg hi (p.extractLsb' 32 32)) lo (p.extractLsb' 0 32)
    exact OnlyRegs.mono (by simpa using this) (by simp)
  cases f with
  | false =>
    refine ⟨(((s.executed true).setReg hi (p.extractLsb' 32 32)).setReg lo (p.extractLsb' 0 32)).advance, by rw [h]; rfl,
      hb _ rfl, ho _ rfl, ?_, ?_, ?_⟩
    · simp
    · simp [FallsThrough]
    · simp [SameOutside]
  | true =>
    refine ⟨(((((s.executed true).setReg hi (p.extractLsb' 32 32)).setReg lo (p.extractLsb' 0 32)).setCpsr
      (mulLongFlags (s.executed true) p)).drawn.drawn).advance, by rw [h]; rfl, hb _ rfl, ho _ rfl, ?_, ?_, ?_⟩
    · simp only [if_true, State.advance_cpsr, State.drawn_cpsr, State.setCpsr_cpsr, mulLongFlags, withNZCV_flagN,
        withNZCV_flagZ, State.executed_cpsr]
      exact ⟨withNZCV_sameControl .., BitVec.msb_eq_getLsbD_last p, beq_eq_decide _ _⟩
    · simp [FallsThrough, State.width, mulLongFlags]
    · simp [SameOutside]

end Sys2Proof.Machine
end

