-- ==== Sys2Proof/Laws/Transfer.lean ====
section
/-!
SUPPORT. One lemma per shared body of the instructions that access memory: what a single load, a single store and a swap do when
the memory system answers, and that an aborted access enters the Data Abort with no register of the instruction written.
-/

namespace Sys2Proof.Machine

/-! ## Accesses and registers -/

section
variable (s : State) (e : BusEvent) (w : Word) (bs : List (Nat × Byte))
@[simp] theorem State.accessed_bankReg (m : BitVec 5) (r : Reg) : (s.accessed e w).bankReg m r = s.bankReg m r := rfl
@[simp] theorem State.accessed_mode : (s.accessed e w).mode = s.mode := rfl
@[simp] theorem State.accessed_width : (s.accessed e w).width = s.width := rfl
@[simp] theorem State.accessed_regs' : (s.accessed e w).regs = s.regs := rfl
@[simp] theorem State.storeMem_mode : (s.storeMem bs).mode = s.mode := rfl
@[simp] theorem State.storeMem_width : (s.storeMem bs).width = s.width := rfl
@[simp] theorem State.storeMem_bankReg (m : BitVec 5) (r : Reg) : (s.storeMem bs).bankReg m r = s.bankReg m r := rfl
@[simp] theorem State.writeBack_none : s.writeBack none = s := rfl
@[simp] theorem State.writeBack_some (x : Reg × Word) : s.writeBack (some x) = s.setReg x.1 x.2 := rfl
@[simp] theorem State.setBankReg_mode (m : BitVec 5) (r : Reg) (v : Word) : (s.setBankReg m r v).mode = s.mode := by
  simp [State.mode]
@[simp] theorem State.executed_readable (b : Bool) (a : Word) (z : Size) (u : Bool) :
    Readable (s.executed b) a z u ↔ Readable s a z u := Iff.rfl
@[simp] theorem State.executed_writable (b : Bool) (a : Word) (z : Size) (u : Bool) :
    Writable (s.executed b) a z u ↔ Writable s a z u := Iff.rfl
end

@[simp] theorem State.writeBack_mode (s : State) (wb : Option (Reg × Word)) : (s.writeBack wb).mode = s.mode := by
  simp [State.mode]

@[simp] theorem State.writeBack_width (s : State) (wb : Option (Reg × Word)) : (s.writeBack wb).width = s.width := by
  simp [State.width]

/-- The base after write-back. -/
theorem State.writeBack_reads (s : State) (wb : Option (Reg × Word)) (h : ∀ x ∈ wb, x.1 ≠ 15#4) :
    ∀ x ∈ wb, (s.writeBack wb).bankReg s.mode x.1 = x.2 := by
  rintro x hx
  obtain rfl : wb = some x := hx
  exact State.bankReg_setReg_same s x.1 x.2 (h x rfl)

/-- Write-back changes only the base. -/
theorem OnlyRegs.writeBack (s : State) (wb : Option (Reg × Word)) :
    OnlyRegs s.mode (wb.toList.map Prod.fst) s (s.writeBack wb) := by
  cases wb with
  | none => exact OnlyRegs.of_eq rfl
  | some x => exact OnlyRegs.setReg s x.1 x.2

/-- The base written back before a load survives the load of another register. -/
theorem writeBack_then_setReg (s : State) (wb : Option (Reg × Word)) (rd : Reg) (v : Word)
    (h : ∀ x ∈ wb, x.1 ≠ 15#4 ∧ x.1 ≠ rd) :
    ∀ x ∈ wb, ((s.writeBack wb).setReg rd v).bankReg s.mode x.1 = x.2 := by
  intro x hx
  have h1 := State.writeBack_reads s wb (fun x hx => (h x hx).1) x hx
  rw [State.setReg, State.writeBack_mode, State.bankReg_setBankReg_ne _ _ _ _ _ (h x hx).1 (h x hx).2, h1]

/-- A loaded register and a written-back base are all that a load changes. -/
theorem OnlyRegs.writeBack_setReg (s : State) (wb : Option (Reg × Word)) (rd : Reg) (v : Word) :
    OnlyRegs s.mode (rd :: wb.toList.map Prod.fst) s ((s.writeBack wb).setReg rd v) := by
  refine OnlyRegs.trans ((OnlyRegs.writeBack s wb).mono fun r hr => List.mem_cons_of_mem _ hr) ?_
  have := OnlyRegs.setReg (s.writeBack wb) rd v
  rw [State.writeBack_mode] at this
  exact this.mono fun r hr => by simp only [List.mem_singleton] at hr; simp [hr]

/-! ## The bytes of a store -/

/-- Reading after a list of writes to distinct addresses. -/
theorem Memory.read_writeAll_mem {x : Nat × Byte} : ∀ {bs : List (Nat × Byte)} {m : List Host.Cell}, Memory.wf m = true →
    (∀ y ∈ bs, y.1 < 2 ^ 32) → (bs.map Prod.fst).Nodup → x ∈ bs → Memory.read (Memory.writeAll m bs) x.1 = x.2
  | (a, b) :: rest, m, hm, hb, hn, hx => by
    simp only [List.map_cons, List.nodup_cons] at hn
    rcases List.mem_cons.mp hx with rfl | hx
    · rw [Memory.writeAll, Memory.read_writeAll_ne, Memory.read_write hm, if_pos rfl]
      intro y hy hy'
      exact hn.1 (List.mem_map.mpr ⟨y, hy, hy'⟩)
    · exact Memory.read_writeAll_mem (bs := rest) (m := Memory.write m a b) (Memory.write_wf b (hb (a, b) List.mem_cons_self) hm)
        (fun y hy => hb y (List.mem_cons_of_mem _ hy)) hn.2 hx

theorem byteAddr_ne {a : Word} {i j : Nat} (hi : i < 4) (hj : j < 4) (h : i ≠ j) : byteAddr a i ≠ byteAddr a j := by
  intro he
  have := BitVec.eq_of_toNat_eq he
  have h2 : BitVec.ofNat 32 i = BitVec.ofNat 32 j := by simpa using this
  have h3 := congrArg BitVec.toNat h2
  simp only [BitVec.toNat_ofNat] at h3
  omega

/-- The bytes of one store have different addresses. -/
theorem storeBytes_nodup (big : Bool) (size : Size) (a v : Word) : ((storeBytes big size a v).map Prod.fst).Nodup := by
  cases size <;> simp [storeBytes, byteAddr_ne]

/-- A list of bytes with different addresses, stored. -/
theorem stored_storeMem {s t u : State} {bs : List (Nat × Byte)} (hs : t.mem = s.mem)
    (hu : u.mem = Memory.writeAll t.mem bs) (hb : ∀ y ∈ bs, y.1 < 2 ^ 32) (hn : (bs.map Prod.fst).Nodup) : Stored bs s u := by
  rw [hs] at hu
  refine ⟨fun x hx => ?_, fun hm y hy => ?_⟩
  · rw [State.byteAt, hu, Memory.read_writeAll_ne _ hx]; rfl
  · rw [State.byteAt, hu, Memory.read_writeAll_mem hm hb hn hy]

/-! ## Single transfers -/

theorem oddHalf_false {size : Size} {a : Word} (h : EvenFor size a) : oddHalf size a = false := by
  cases size <;> simp_all [oddHalf, EvenFor]

/-- `loadOp` into a register other than R15, answered by the memory system. -/
theorem loadOp_done {i : Instr} {s : State} {k : LoadKind} {a : Word} {user : Bool} {wb : Option (Reg × Word)} {rd : Reg}
    (h : exec i s = loadOp k a user wb rd (s.executed true)) (hr : Readable s a k.size user) (he : EvenFor k.size a)
    (hrd : rd ≠ 15#4) (hwb : ∀ x ∈ wb, x.1 ≠ 15#4 ∧ x.1 ≠ rd) : LoadDone i s k a user wb rd := by
  have hb : (s.executed true).spend = s.executed true := State.spend_eq hr.2.1
  let t := (s.executed true).accessed ((s.executed true).event a k.size false (s.busRead k.size a) user .single)
    (busWordAt s.pins.bigend s.mem a)
  have ht : t.mode = s.mode := rfl
  refine ⟨((t.writeBack wb).setReg rd (k.value a (s.busRead k.size a))).advance, ?_, ?_, ?_, ?_, ?_, ?_, ?_, ?_⟩
  · rw [h, loadOp, oddHalf_false he, State.readData_ok (s := s.executed true) hr, hb]
    simp only [hrd, false_and, Bool.false_eq_true, if_false]
    rfl
  · rw [State.bankReg_advance, ← ht, ← State.writeBack_mode t wb, State.bankReg_setReg_same _ _ _ hrd]
  · intro x hx
    rw [State.bankReg_advance, ← ht, writeBack_then_setReg t wb rd _ hwb x hx]
  · exact onlyRegs_from (onlyRegs_of_regs (OnlyRegs.writeBack_setReg t wb rd _) rfl) rfl
  · simp [t]
  · simp [FallsThrough, t]
  · intro x; simp [State.byteAt, t]
  · simp [SameOutside, t, State.afterAccess, State.accessed, State.event, State.executed, State.dnTrans, State.privileged,
      State.mode, State.dnMode]

/-- `loadOp` into R15 from an aligned address jumps. -/
theorem loadOp_jump {i : Instr} {s : State} {a : Word} {wb : Option (Reg × Word)}
    (h : exec i s = loadOp .word a false wb 15#4 (s.executed true)) (hr : Readable s a .word false)
    (ha : a.extractLsb' 0 2 = 0#2) (hwb : ∀ x ∈ wb, x.1 ≠ 15#4) :
    ∃ t, exec i s = .next t ∧ t.pc = LoadKind.value .word a (s.busRead .word a) &&& 0xFFFFFFFC#32 ∧ t.cpsr = s.cpsr ∧
      (∀ x ∈ wb, t.bankReg s.mode x.1 = x.2) ∧ OnlyRegs s.mode (wb.toList.map Prod.fst) s t ∧
      (∀ x, t.byteAt x = s.byteAt x) ∧
      SameOutside (s.afterAccess a .word false (s.busRead .word a) false .single (busWordAt s.pins.bigend s.mem a)) t := by
  have hb : (s.executed true).spend = s.executed true := State.spend_eq hr.2.1
  let t := (s.executed true).accessed ((s.executed true).event a .word false (s.busRead .word a) false .single)
    (busWordAt s.pins.bigend s.mem a)
  refine ⟨(t.writeBack wb).branchTo (LoadKind.value .word a (s.busRead .word a) &&& 0xFFFFFFFC#32), ?_, rfl, ?_, ?_, ?_, ?_, ?_⟩
  · rw [h, loadOp, show LoadKind.word.size = Size.word from rfl, State.readData_ok (s := s.executed true) hr, hb]
    simp [oddHalf, ha, t, State.busRead]
  · simp [t]
  · exact State.writeBack_reads t wb hwb
  · exact onlyRegs_from (onlyRegs_of_regs (OnlyRegs.writeBack t wb) rfl) rfl
  · intro x; simp [State.byteAt, t]
  · simp [SameOutside, t, State.afterAccess, State.accessed, State.event, State.executed, State.dnTrans, State.privileged,
      State.mode, State.dnMode]

/-- `storeOp`, accepted by the memory system. -/
theorem storeOp_done {i : Instr} {s : State} {size : Size} {a v : Word} {user : Bool} {wb : Option (Reg × Word)}
    (h : exec i s = storeOp size a v user wb (s.executed true)) (hr : Writable s a size user) (he : EvenFor size a)
    (hwb : ∀ x ∈ wb, x.1 ≠ 15#4) : StoreDone i s size a v user wb := by
  let t := ((s.executed true).accessed ((s.executed true).event a size true (ddCopies size v) user .single)
    (ddCopies size v)).storeMem (storeBytes s.pins.bigend size a v)
  refine ⟨(t.writeBack wb).advance, ?_, ?_, ?_, ?_, ?_, ?_, ?_⟩
  · rw [h, storeOp, oddHalf_false he, State.writeData_ok (s := s.executed true) hr]
    rfl
  · exact stored_storeMem (t := s) rfl (by simp [t]) storeBytes_lt (storeBytes_nodup ..)
  · exact State.writeBack_reads t wb hwb
  · exact onlyRegs_from (onlyRegs_of_regs (OnlyRegs.writeBack t wb) rfl) rfl
  · simp [t]
  · simp [FallsThrough, t]
  · simp [SameButMemory, t, State.afterAccess, State.accessed, State.event, State.executed, State.dnTrans, State.privileged,
      State.mode, State.dnMode]

theorem rotateWord_aligned {a : Word} (h : a.extractLsb' 0 2 = 0#2) (w : Word) : rotateWord a w = w := by
  simp [rotateWord, h, BitVec.rotateRight, BitVec.rotateRightAux]

/-- An aligned address is not refused. -/
theorem State.refusesWord_aligned {a : Word} (h : a.extractLsb' 0 2 = 0#2) (s : State) : s.refusesWord a = false := by
  simp [State.refusesWord, h]

/-- What is refused of the Thumb word accesses at an address that is not aligned. -/
theorem State.refusesWord_unaligned {a : Word} (h : a.extractLsb' 0 2 ≠ 0#2) (s : State) :
    s.refusesWord a = (s.pins.strict && !s.debugSpeed) := by
  simp [State.refusesWord, h]

/-- From an aligned address a Thumb word load is a word load. -/
theorem thumbLoadWord_aligned {a : Word} (h : a.extractLsb' 0 2 = 0#2) (rd : LowReg) (s : State) :
    thumbLoadWord a rd s = loadOp .word a false none (lowReg rd) s := by
  have hr : lowReg rd ≠ 15#4 := lowReg_ne rd
  simp only [thumbLoadWord, State.refusesWord_aligned h, Bool.false_eq_true, loadOp, LoadKind.size, h, hr, if_true, if_false, oddHalf, LoadKind.value, rotateWord_aligned h,
    State.writeBack_none, false_and]
  rfl

/-- To an aligned address a Thumb word store is a word store. -/
theorem thumbStoreWord_aligned {a : Word} (h : a.extractLsb' 0 2 = 0#2) (rd : LowReg) (s : State) :
    thumbStoreWord a rd s = storeOp .word a (s.reg (lowReg rd)) false none s := by
  rw [thumbStoreWord, State.refusesWord_aligned h, if_neg Bool.false_ne_true, if_pos (.inl h)]

/-- A single load that the memory system aborts. -/
theorem loadOp_aborts {s : State} {k : LoadKind} {a : Word} {user : Bool} {wb : Option (Reg × Word)} {rd : Reg}
    (h : Aborts s a k.size false user) (he : EvenFor k.size a) (hpc : rd = 15#4 → a.extractLsb' 0 2 = 0#2) :
    ∃ e w, loadOp k a user wb rd s = .next (s.drawn.accessed e w).takeDataAbort := by
  refine ⟨⟨a, k.size, false, lane s.pins.bigend k.size a s.freeWord, s.dnTrans user, s.dnMode user, false, true, false, false⟩,
    s.freeWord, ?_⟩
  rw [loadOp, oddHalf_false he, State.readData_abort h, if_neg (by simp), if_neg fun h => h.2 (hpc h.1)]
  rfl

/-- A single store that the memory system aborts: memory changes only where the rule says so. -/
theorem storeOp_aborts {s : State} {size : Size} {a v : Word} {user : Bool} {wb : Option (Reg × Word)} {r : MemRule}
    (h1 : s.debugSpeed = false) (h2 : s.sys.budget = none) (h3 : s.dataRule a size true user = some r)
    (h4 : r.answer.aborts = true) (he : EvenFor size a) :
    ∃ e w, storeOp size a v user wb s =
      .next (if r.answer.lands then (s.accessed e w).storeMem (storeBytes s.pins.bigend size a v)
        else s.accessed e w).takeDataAbort := by
  refine ⟨⟨a, size, true, ddCopies size v, s.dnTrans user, s.dnMode user, false, true, false, false⟩, ddCopies size v, ?_⟩
  rw [storeOp, oddHalf_false he, State.writeData_abort h1 h2 h3 h4, if_neg (by simp)]
  rfl

/-! ## Other bus masters -/

/-- With nobody else about, nothing happens between two accesses. -/
theorem State.othersAct_alone {s : State} (h : Alone s) : s.othersAct = s := by
  unfold State.othersAct
  rw [h]

theorem State.between_alone {α : Type} {s : State} (h : Alone s) (rest : List α) : s.between rest = s := by
  unfold State.between
  rw [State.othersAct_alone h, ite_self]

/-- No other master comes between the accesses of a swap that holds the bus. -/
theorem State.swapGap_eq {s : State} (h : s.sys.locks = true ∨ Alone s) : s.swapGap = s := by
  unfold State.swapGap
  rcases h with h | h
  · rw [if_pos h]
  · rw [State.othersAct_alone h, ite_self]

/-- `swapOp` with both accesses answered. -/
theorem swapOp_done {s : State} {k : LoadKind} {rn rd rm : Reg} (hr : Readable s (s.reg rn) k.size false)
    (hw : Writable s (s.reg rn) k.size false) (hl : s.sys.locks = true ∨ Alone s) :
    ∃ t : State, swapOp k rn rd rm s = .next (t.setReg rd (k.value (s.reg rn) (s.busRead k.size (s.reg rn)))).advance ∧
      t = ((s.accessed (s.event (s.reg rn) k.size false (s.busRead k.size (s.reg rn)) false .locked)
        (busWordAt s.pins.bigend s.mem (s.reg rn))).accessed
          (s.event (s.reg rn) k.size true (ddCopies k.size (s.reg rm)) false .locked)
          (ddCopies k.size (s.reg rm))).storeMem (storeBytes s.pins.bigend k.size (s.reg rn) (s.reg rm)) := by
  refine ⟨_, ?_, rfl⟩
  rw [swapOp, State.readData_ok hr, State.spend_eq hr.2.1]
  simp only
  rw [State.swapGap_eq (s := s.accessed _ _) hl, State.writeData_ok (s := s.accessed _ _) (by exact hw)]
  rfl

/-! ## Single transfers, as statements say them -/

theorem oddHalf_true {size : Size} {a : Word} (h : ¬ EvenFor size a) : oddHalf size a = true := by
  cases size <;> simp_all [oddHalf, EvenFor]

/-- An instruction whose body is `loadOp` is a load in the sense of `LoadTo`. -/
theorem loadTo_of {i : Instr} {s : State} {k : LoadKind} {a : Word} {user : Bool} {wb : Option (Reg × Word)} {rd : Reg}
    (h : Runs i s → exec i s = loadOp k a user wb rd (s.executed true))
    (hwb : Runs i s → ∀ x ∈ wb, x.1 ≠ 15#4 ∧ x.1 ≠ rd) : LoadTo i s k a user wb rd :=
  fun hr => ⟨fun h1 h2 h3 => loadOp_done (h hr) h1 h2 h3 (hwb hr),
    fun he => by rw [h hr, loadOp, if_pos (oddHalf_true he)]⟩

/-- An instruction whose body is `storeOp` is a store in the sense of `StoreTo`. -/
theorem storeTo_of {i : Instr} {s : State} {size : Size} {a v : Word} {user : Bool} {wb : Option (Reg × Word)}
    (h : Runs i s → exec i s = storeOp size a v user wb (s.executed true))
    (hwb : Runs i s → ∀ x ∈ wb, x.1 ≠ 15#4) : StoreTo i s size a v user wb :=
  fun hr => ⟨fun h1 h2 => storeOp_done (h hr) h1 h2 (hwb hr), fun he => by rw [h hr, storeOp, if_pos (oddHalf_true he)]⟩

/-- What an unaligned Thumb word load leaves when it is not refused, whatever word it was answered with. -/
theorem loadOpen_next {s u : State} {rd : LowReg} (w : Word) (hr : u.regs = s.regs) (hc : u.cpsr = s.cpsr) (hp : u.pc = s.pc)
    (hm : u.mem = s.mem) (ha : SameButAccesses s u) :
    let t := (u.setReg (lowReg rd) w).advance
    OnlyRegs s.mode [lowReg rd] s t ∧ t.cpsr = s.cpsr ∧ FallsThrough s t ∧ (∀ x, t.byteAt x = s.byteAt x) ∧ SameButAccesses s t := by
  have hmode : u.mode = s.mode := by simp [State.mode, hc]
  refine ⟨?_, ?_, ?_, ?_, ?_⟩
  · refine onlyRegs_of_regs (t := s.setReg (lowReg rd) w) (OnlyRegs.setReg s _ _) ?_
    rw [State.advance_regs, State.setReg, State.setReg, State.setBankReg, State.setBankReg, if_neg (lowReg_ne rd),
      if_neg (lowReg_ne rd)]
    simp [hr, hmode]
  · simp [hc]
  · simp [FallsThrough, hp, State.width, hc]
  · intro x; simp [State.byteAt, hm]
  · simpa [SameButAccesses] using ha

/-- A Thumb word load from an unaligned address. -/
theorem loadOpen_of {i : Instr} {s : State} {a : Word} {rd : LowReg}
    (h : Runs i s → exec i s = thumbLoadWord a rd (s.executed true)) (ha : a.extractLsb' 0 2 ≠ 0#2) :
    LoadOpen i s a (lowReg rd) := by
  intro hr
  have hx : (s.executed true).refusesWord a = (s.pins.strict && !s.debugSpeed) := State.refusesWord_unaligned ha _
  refine ⟨fun h1 h2 => ?_, fun hs => ?_⟩
  · rw [h hr, thumbLoadWord, hx, if_pos]
    simpa [h1] using h2
  · have hf : (s.executed true).refusesWord a = false := by
      rw [hx]
      rcases hs with hs | hs
      · simp [hs]
      · simp [hs.1]
    rw [h hr, thumbLoadWord, hf, if_neg Bool.false_ne_true]
    rcases hs with hs | ⟨-, hs⟩
    · have hd : (s.executed true).debugSpeed = true := hs
      simp only [State.readData, hd, if_true, ha, if_false]
      exact ⟨_, rfl, loadOpen_next _ rfl rfl rfl rfl (by simp [SameButAccesses, State.showed])⟩
    · rw [State.readData_ok (s := s.executed true) hs, State.spend_eq (s := s.executed true) hs.2.1]
      simp only [ha, if_false]
      refine ⟨_, rfl, loadOpen_next _ rfl rfl rfl rfl ?_⟩
      simp [SameButAccesses]
      repeat' constructor

/-- A Thumb word store to an unaligned address. -/
theorem storeOpen_of {i : Instr} {s : State} {a : Word} {rd : LowReg}
    (h : Runs i s → exec i s = thumbStoreWord a rd (s.executed true)) (ha : a.extractLsb' 0 2 ≠ 0#2) :
    StoreOpen i s a (s.reg (lowReg rd)) := by
  intro hr
  have hx : (s.executed true).refusesWord a = (s.pins.strict && !s.debugSpeed) := State.refusesWord_unaligned ha _
  refine ⟨fun h1 h2 => ?_, fun hf hs => ?_, fun hd => ?_⟩
  · rw [h hr, thumbStoreWord, hx, if_pos]
    simpa [h1] using h2
  · have hn : ¬ (a.extractLsb' 0 2 = 0#2 ∨ (s.executed true).debugSpeed = true) := by
      have : (s.executed true).debugSpeed = false := hs.1
      simp [ha, this]
    rw [h hr, thumbStoreWord, hx, if_neg (by simp [hf]), if_neg hn, storeOp, State.writeData_ok (s := (s.executed true).drawn) hs]
    refine ⟨_, s.freeWord, rfl, stored_storeMem (t := s) rfl (by simp; rfl) storeBytes_lt (storeBytes_nodup ..), ?_, ?_, ?_, rfl, rfl,
      rfl, rfl, rfl, rfl, rfl, rfl, rfl, rfl, rfl, rfl, rfl, rfl, rfl, rfl, rfl, rfl⟩
    · simp
    · simp
    · simp [FallsThrough]
  · have he : (s.executed true).debugSpeed = true := hd
    rw [h hr, thumbStoreWord, hx, if_neg (by simp [hd]), if_pos (.inr he), storeOp]
    simp only [State.writeData, he, if_true]
    refine ⟨_, rfl, ?_, ?_, ?_, ?_, ?_, ?_⟩
    · rfl
    · rfl
    · rfl
    · rfl
    · simp [FallsThrough, State.showed, State.width]
    · simp [SameButAccesses, State.showed]

/-! ## Thumb STMIA -/

/-- Where it is not refused, STMIA is the block store of its values. -/
theorem stmiaOp_eq {rb : LowReg} {list : BitVec 8} {s : State} (h : s.pins.strict = false ∨ baseNotLowest rb list = false) :
    stmiaOp rb list s = blockStore (s.reg (lowReg rb)) ((regList list).map (stmiaValue rb list s)) (lowReg rb)
      (some (s.reg (lowReg rb) + BitVec.ofNat 32 (4 * (regList list).length))) s.drawn := by
  have : (s.pins.strict && baseNotLowest rb list) = false := by rcases h with h | h <;> simp [h]
  simp only [stmiaOp, this, Bool.false_eq_true, if_false]

/-- With its base in the list and not the lowest it is refused in a run that makes the refusals of the spec. -/
theorem stmiaOp_refused {rb : LowReg} {list : BitVec 8} {s : State} (h : s.pins.strict = true) (hb : baseNotLowest rb list = true) :
    stmiaOp rb list s = .refused (.unpredictable .baseInList) := by
  simp [stmiaOp, h, hb]

end Sys2Proof.Machine
end

