-- ==== Sys2Proof/Laws/Block.lean ====
section
/-!
SUPPORT. Block transfers: what reading and writing a run of words leaves behind, loading a list of registers, and one lemma per
shared body for the completed and for the aborted transfer.
-/

namespace Sys2Proof.Machine

/-- `t` is `s` after some data accesses, memory, the stale slots and the count of free values aside. -/
structure OnlyAccesses (s t : State) : Prop where
  regs : t.regs = s.regs
  pc : t.pc = s.pc
  cpsr : t.cpsr = s.cpsr
  spsr : t.spsr = s.spsr
  imem : t.imem = s.imem
  pins : t.pins = s.pins
  sys : t.sys = s.sys
  cop : t.cop = s.cop
  tap : t.tap = s.tap
  inReset : t.inReset = s.inReset
  schedule : t.schedule = s.schedule
  dbgCtl : t.ice.dbgCtl = s.ice.dbgCtl
  vecCatch : t.ice.vecCatch = s.ice.vecCatch
  commsRead : t.ice.commsRead = s.ice.commsRead
  commsWrite : t.ice.commsWrite = s.ice.commsWrite
  wBit : t.ice.wBit = s.ice.wBit
  rBit : t.ice.rBit = s.ice.rBit
  wCore : t.ice.wCore = s.ice.wCore
  rCore : t.ice.rCore = s.ice.rCore
  wDbg : t.ice.wDbg = s.ice.wDbg
  rDbg : t.ice.rDbg = s.ice.rDbg
  inDebug : t.dbg.inDebug = s.dbg.inDebug
  sysSpeed : t.dbg.sysSpeed = s.dbg.sysSpeed

theorem OnlyAccesses.refl (s : State) : OnlyAccesses s s := by constructor <;> rfl

theorem OnlyAccesses.trans {s t u : State} (h : OnlyAccesses s t) (h' : OnlyAccesses t u) : OnlyAccesses s u where
  regs := h'.regs.trans h.regs
  pc := h'.pc.trans h.pc
  cpsr := h'.cpsr.trans h.cpsr
  spsr := h'.spsr.trans h.spsr
  imem := h'.imem.trans h.imem
  pins := h'.pins.trans h.pins
  sys := h'.sys.trans h.sys
  cop := h'.cop.trans h.cop
  tap := h'.tap.trans h.tap
  inReset := h'.inReset.trans h.inReset
  schedule := h'.schedule.trans h.schedule
  dbgCtl := h'.dbgCtl.trans h.dbgCtl
  vecCatch := h'.vecCatch.trans h.vecCatch
  commsRead := h'.commsRead.trans h.commsRead
  commsWrite := h'.commsWrite.trans h.commsWrite
  wBit := h'.wBit.trans h.wBit
  rBit := h'.rBit.trans h.rBit
  wCore := h'.wCore.trans h.wCore
  rCore := h'.rCore.trans h.rCore
  wDbg := h'.wDbg.trans h.wDbg
  rDbg := h'.rDbg.trans h.rDbg
  inDebug := h'.inDebug.trans h.inDebug
  sysSpeed := h'.sysSpeed.trans h.sysSpeed

theorem OnlyAccesses.accessed (s : State) (e : BusEvent) (w : Word) : OnlyAccesses s (s.accessed e w) := by
  constructor <;> rfl

theorem OnlyAccesses.storeMem (s : State) (bs : List (Nat × Byte)) : OnlyAccesses s (s.storeMem bs) := by
  constructor <;> rfl

theorem OnlyAccesses.drawn (s : State) : OnlyAccesses s s.drawn := by constructor <;> rfl

theorem OnlyAccesses.executed (s : State) (b : Bool) : OnlyAccesses s (s.executed b) := by
  constructor <;> rfl

theorem OnlyAccesses.mode {s t : State} (h : OnlyAccesses s t) : t.mode = s.mode := by simp [State.mode, h.cpsr]

theorem OnlyAccesses.width {s t : State} (h : OnlyAccesses s t) : t.width = s.width := by simp [State.width, h.cpsr]

theorem OnlyAccesses.debugSpeed {s t : State} (h : OnlyAccesses s t) : t.debugSpeed = s.debugSpeed := by
  simp [State.debugSpeed, h.inDebug, h.sysSpeed]

theorem OnlyAccesses.dataRule {s t : State} (h : OnlyAccesses s t) (a : Word) (z : Size) (w u : Bool) :
    t.dataRule a z w u = s.dataRule a z w u := by
  simp [State.dataRule, State.dnTrans, State.dnMode, State.privileged, h.mode, h.sys]

theorem OnlyAccesses.dataAborts {s t : State} (h : OnlyAccesses s t) (a : Word) (z : Size) (w u : Bool) :
    t.dataAborts a z w u = s.dataAborts a z w u := by
  rw [State.dataAborts, State.dataAborts, h.dataRule]

/-! ## Runs of words -/

/-- One word read: none exactly when it aborts, memory's word where no rule speaks of it. -/
theorem State.readData_word {s : State} (a : Word) (b : Beat) (h1 : s.debugSpeed = false) (h2 : s.sys.budget = none) :
    ∃ w t, s.readData a .word false b = (if s.dataAborts a .word false false then none else some w, t) ∧
      (s.dataRule a .word false false = none → w = busWordAt s.pins.bigend s.mem a) ∧
      OnlyAccesses s t ∧ t.mem = s.mem ∧ t.pipe = s.pipe := by
  refine ⟨(s.ddin a (s.dataRule a .word false false)).1, (s.readData a .word false b).2, ?_, ?_, ?_⟩
  · simp only [State.readData, h1, h2, State.dataAborts, lane, Bool.false_eq_true, if_false, reduceCtorEq]
    rfl
  · intro h; simp [State.ddin, h]
  · have hd : ∀ r, (s.ddin a r).2 = s ∨ (s.ddin a r).2 = s.drawn := by
      intro r; unfold State.ddin; split
      · exact .inr rfl
      · exact .inl rfl
    simp only [State.readData, h1, h2, Bool.false_eq_true, if_false, reduceCtorEq]
    rcases hd (s.dataRule a .word false false) with h | h <;> rw [h]
    · rw [State.spend_eq h2]; exact ⟨OnlyAccesses.accessed .., rfl, rfl⟩
    · rw [State.spend_eq (s := s.drawn) h2]
      exact ⟨(OnlyAccesses.drawn s).trans (OnlyAccesses.accessed ..), rfl, rfl⟩

/-- A run of words: memory's words where no rule speaks of them, a none where one of them aborts; and only accesses are made. -/
theorem readRun_spec : ∀ {as : List Word} {seq : Bool} {s : State}, Alone s → s.debugSpeed = false → s.sys.budget = none →
    ((∀ a ∈ as, s.dataRule a .word false false = none) →
        (readRun seq as s).1 = as.map fun a => some (busWordAt s.pins.bigend s.mem a)) ∧
      ((∃ a ∈ as, s.dataAborts a .word false false = true) → none ∈ (readRun seq as s).1) ∧
      OnlyAccesses s (readRun seq as s).2 ∧ (readRun seq as s).2.mem = s.mem ∧ (readRun seq as s).2.pipe = s.pipe
  | [], _, s, _, _, _ => ⟨fun _ => rfl, fun ⟨_, h, _⟩ => (List.not_mem_nil h).elim, OnlyAccesses.refl s, rfl, rfl⟩
  | a :: rest, seq, s, h0, h1, h2 => by
    obtain ⟨w, t, hk, hw, ha, hm, hp⟩ := State.readData_word a ⟨false, seq, !rest.isEmpty⟩ h1 h2
    have ht : Alone t := by rw [Alone, ha.sys]; exact h0
    obtain ⟨r1, r2, r3, r4, r5⟩ := readRun_spec (as := rest) (seq := true) (s := t) ht (by rw [ha.debugSpeed, h1]) (by rw [ha.sys, h2])
    simp only [ha.dataRule, ha.dataAborts, ha.pins, hm] at r1 r2
    cases hab : s.dataAborts a .word false false with
    | true =>
      have hne : s.dataRule a .word false false ≠ none := by
        intro hn; rw [State.dataAborts, hn] at hab; cases hab
      rw [readRun, hk, hab, if_pos rfl]
      dsimp only
      rw [State.between_alone ht]
      split
      · exact ⟨fun hall => (hne (hall a List.mem_cons_self)).elim, fun _ => List.mem_cons_self, ha, hm, hp⟩
      · exact ⟨fun hall => (hne (hall a List.mem_cons_self)).elim, fun _ => List.mem_cons_self, ha.trans r3, r4.trans hm,
          r5.trans hp⟩
    | false =>
      rw [readRun, hk, hab]
      dsimp only
      rw [State.between_alone ht]
      refine ⟨fun hall => ?_, fun ⟨x, hx, hxa⟩ => ?_, ha.trans r3, r4.trans hm, r5.trans hp⟩
      · rw [List.map_cons, ← r1 fun x hx => hall x (List.mem_cons_of_mem _ hx), ← hw (hall a List.mem_cons_self)]
        rfl
      · rcases List.mem_cons.mp hx with rfl | hx
        · rw [hab] at hxa; cases hxa
        · exact List.mem_cons_of_mem _ (r2 ⟨x, hx, hxa⟩)

/-- The words of a block: `readRun_spec` from its first word. -/
theorem readWords_spec {as : List Word} {s : State} (h0 : Alone s) (h1 : s.debugSpeed = false) (h2 : s.sys.budget = none) :
    ((∀ a ∈ as, s.dataRule a .word false false = none) →
        (readWords as s).1 = as.map fun a => some (busWordAt s.pins.bigend s.mem a)) ∧
      ((∃ a ∈ as, s.dataAborts a .word false false = true) → none ∈ (readWords as s).1) ∧
      OnlyAccesses s (readWords as s).2 ∧ (readWords as s).2.mem = s.mem ∧ (readWords as s).2.pipe = s.pipe :=
  readRun_spec (seq := false) h0 h1 h2

theorem allWords_map_some {f : Word → Word} : ∀ as : List Word, allWords (as.map fun a => some (f a)) = some (as.map f)
  | [] => rfl
  | a :: rest => by simp [allWords, allWords_map_some rest]

theorem allWords_none : ∀ {l : List (Option Word)}, none ∈ l → allWords l = none
  | none :: _, _ => rfl
  | some w :: rest, h => by
    have : none ∈ rest := by simpa using h
    simp [allWords, allWords_none this]

/-- A run of readable words. -/
theorem readWords_ok {s : State} {start : Word} {n : Nat} (h : BlockReadable s start n) (hd : s.debugSpeed = false)
    (hb : s.sys.budget = none) :
    allWords (readWords (blockAddrs start n) s).1 =
        some ((blockAddrs start n).map fun a => busWordAt s.pins.bigend s.mem a) ∧
      (readWords (blockAddrs start n) s).1 = (blockAddrs start n).map (fun a => some (busWordAt s.pins.bigend s.mem a)) := by
  have h2 : (readWords (blockAddrs start n) s).1 =
      (blockAddrs start n).map (fun a => some (busWordAt s.pins.bigend s.mem a)) := by
    refine (readWords_spec h.1 hd hb).1 fun a ha => ?_
    obtain ⟨k, hk, rfl⟩ := List.mem_map.mp ha
    exact (h.2 k (List.mem_range.mp hk)).2.2
  exact ⟨by rw [h2, allWords_map_some], h2⟩

/-- A run of words one of which is aborted. -/
theorem readWords_aborts {s : State} {start : Word} {n : Nat} (h : BlockAborts s start n false) :
    allWords (readWords (blockAddrs start n) s).1 = none := by
  obtain ⟨h0, hd, hb, k, hk, hr⟩ := h
  exact allWords_none ((readWords_spec h0 hd hb).2.1
    ⟨wordAddr start k, List.mem_map.mpr ⟨k, List.mem_range.mpr hk, rfl⟩, hr⟩)

/-- One word written: it reports whether it aborts, and where no rule speaks of it and none before it aborted memory takes it. -/
theorem State.writeData_word {s : State} (a v : Word) (b : Beat) (late : Bool) (h1 : s.debugSpeed = false) (h2 : s.sys.budget = none) :
    ∃ t, s.writeData a .word v false b late = (s.dataAborts a .word true false, t) ∧ OnlyAccesses s t ∧
      (late = false → s.dataRule a .word true false = none →
        t.mem = Memory.writeAll s.mem (storeBytes s.pins.bigend .word a v)) := by
  refine ⟨(s.writeData a .word v false b late).2, ?_, ?_, ?_⟩
  · simp [State.writeData, h1, h2, State.dataAborts]
  · simp only [State.writeData, h1, h2, State.spend_eq h2, Bool.false_eq_true, if_false, reduceCtorEq]
    repeat' split
    all_goals first
      | exact (OnlyAccesses.accessed ..).trans (OnlyAccesses.storeMem ..)
      | exact OnlyAccesses.accessed ..
  · intro hl hr
    simp [State.writeData, h1, h2, State.spend_eq h2, hl, hr]

/-- Writing a run of words: it reports an abort exactly when one of them aborts, and memory takes them where no rule speaks of
any. -/
theorem writeRun_spec : ∀ {xs : List (Word × Word)} {seq late : Bool} {s : State}, Alone s → s.debugSpeed = false →
    s.sys.budget = none →
    (writeRun seq late xs s).1 = (late || xs.any fun x => s.dataAborts x.1 .word true false) ∧
      OnlyAccesses s (writeRun seq late xs s).2 ∧
      (late = false → (∀ x ∈ xs, s.dataRule x.1 .word true false = none) →
        (writeRun seq late xs s).2.mem =
          Memory.writeAll s.mem (xs.flatMap fun x => storeBytes s.pins.bigend .word x.1 x.2))
  | [], _, late, s, _, _, _ => ⟨by simp [writeRun], OnlyAccesses.refl s, fun _ _ => rfl⟩
  | (a, v) :: rest, seq, late, s, h0, h1, h2 => by
    obtain ⟨t, hk, ht, hm⟩ := State.writeData_word a v ⟨false, seq, !rest.isEmpty⟩ late h1 h2
    have h0' : Alone t := by rw [Alone, ht.sys]; exact h0
    obtain ⟨r1, r2, r3⟩ := writeRun_spec (xs := rest) (seq := true) (late := late || s.dataAborts a .word true false) (s := t) h0'
      (by rw [ht.debugSpeed, h1]) (by rw [ht.sys, h2])
    simp only [ht.dataAborts] at r1
    simp only [ht.dataRule] at r3
    rw [writeRun, hk]
    dsimp only
    rw [State.between_alone h0']
    split
    · rename_i hc
      simp only [Bool.and_eq_true] at hc
      refine ⟨by simp [hc.1], ht, fun _ hall => ?_⟩
      have hn := hall (a, v) List.mem_cons_self
      simp [State.dataAborts, hn] at hc
    · refine ⟨by simp only [r1, List.any_cons, Bool.or_assoc], ht.trans r2, fun hl hall => ?_⟩
      have hn := hall (a, v) List.mem_cons_self
      rw [r3 (by simp [State.dataAborts, hn, hl]) fun x hx => hall x (List.mem_cons_of_mem _ hx), hm hl hn, ht.pins,
        List.flatMap_cons]
      exact (Memory.writeAll_append ..).symm

/-! ## Lists of registers -/

theorem mem_regList {n : Nat} (list : BitVec n) (r : Reg) : r ∈ regList list ↔ list.getLsbD r.toNat = true := by
  simp only [regList, List.mem_map, List.mem_filter, List.mem_range]
  constructor
  · rintro ⟨k, ⟨hk, hl⟩, rfl⟩
    simpa [Nat.mod_eq_of_lt hk] using hl
  · intro h
    exact ⟨r.toNat, ⟨r.isLt, h⟩, by simp⟩

theorem regList_pairwise {n : Nat} (list : BitVec n) : (regList list).Pairwise fun a b => a.toNat < b.toNat := by
  rw [regList, List.pairwise_map]
  refine List.Pairwise.imp_of_mem ?_ (List.pairwise_lt_range.filter _)
  intro a b ha hb hab
  have h1 := List.mem_range.mp (List.mem_filter.mp ha).1
  have h2 := List.mem_range.mp (List.mem_filter.mp hb).1
  simpa [Nat.mod_eq_of_lt h1, Nat.mod_eq_of_lt h2] using hab

theorem regList_nodup {n : Nat} (list : BitVec n) : (regList list).Nodup :=
  (regList_pairwise list).imp fun h he => by rw [he] at h; exact absurd h (Nat.lt_irrefl _)

theorem regList_ne_nil {n : Nat} {list : BitVec n} {r : Reg} (h : list.getLsbD r.toNat = true) : regList list ≠ [] :=
  List.ne_nil_of_mem ((mem_regList list r).mpr h)

/-- The words of a block: `writeRun_spec` from its first word. -/
theorem writeWords_spec {xs : List (Word × Word)} {s : State} (h0 : Alone s) (h1 : s.debugSpeed = false) (h2 : s.sys.budget = none) :
    (writeWords xs s).1 = (xs.any fun x => s.dataAborts x.1 .word true false) ∧ OnlyAccesses s (writeWords xs s).2 ∧
      ((∀ x ∈ xs, s.dataRule x.1 .word true false = none) →
        (writeWords xs s).2.mem = Memory.writeAll s.mem (xs.flatMap fun x => storeBytes s.pins.bigend .word x.1 x.2)) := by
  obtain ⟨r1, r2, r3⟩ := writeRun_spec (xs := xs) (seq := false) (late := false) h0 h1 h2
  exact ⟨by rw [writeWords, r1, Bool.false_or], r2, r3 rfl⟩

/-- A run of words that nRESET strikes after `k` accesses: the first `k` words are written, and no other access is made
(70_reset_and_hazards.md R900). -/
theorem writeRun_struck : ∀ {xs : List (Word × Word)} {seq : Bool} {s : State} {k : Nat}, Alone s → s.debugSpeed = false →
    s.sys.budget = some k → (∀ x ∈ xs, s.dataRule x.1 .word true false = none) →
    (writeRun seq false xs s).1 = false ∧
      (writeRun seq false xs s).2.mem =
        Memory.writeAll s.mem ((xs.take k).flatMap fun x => storeBytes s.pins.bigend .word x.1 x.2) ∧
      (writeRun seq false xs s).2.bus.length = s.bus.length + min k xs.length
  | [], _, s, k, _, _, _, _ => by simp [writeRun, Memory.writeAll]
  | (a, v) :: rest, seq, s, 0, h0, h1, h2, h3 => by
    have hk : s.writeData a .word v false ⟨false, seq, !rest.isEmpty⟩ false = (false, s) := by simp [State.writeData, h1, h2]
    have hb := State.between_alone (rest := rest) h0
    obtain ⟨r1, r2, r3⟩ := writeRun_struck (xs := rest) (seq := true) (s := s) h0 h1 h2
      fun x hx => h3 x (List.mem_cons_of_mem _ hx)
    rw [writeRun, hk]
    simp only [Bool.false_and, Bool.false_eq_true, if_false, Bool.or_self, hb]
    exact ⟨r1, by simpa using r2, by simpa using r3⟩
  | (a, v) :: rest, seq, s, k + 1, h0, h1, h2, h3 => by
    have hr := h3 (a, v) (List.mem_cons_self ..)
    obtain ⟨t, hk, ha, hp, hbg, hm, hl, hd, hru⟩ : ∃ t, s.writeData a .word v false ⟨false, seq, !rest.isEmpty⟩ false = (false, t) ∧
        Alone t ∧ t.pins = s.pins ∧ t.sys.budget = some k ∧
        t.mem = Memory.writeAll s.mem (storeBytes s.pins.bigend .word a v) ∧ t.bus.length = s.bus.length + 1 ∧
        t.debugSpeed = s.debugSpeed ∧ ∀ x, t.dataRule x .word true false = s.dataRule x .word true false := by
      refine ⟨(s.spend.accessed (s.event a .word true (ddCopies .word v) false ⟨false, seq, !rest.isEmpty⟩) (ddCopies .word v)).storeMem (storeBytes s.pins.bigend .word a v), ?_, h0, rfl, ?_, rfl, rfl, rfl,
        fun x => rfl⟩
      · simp only [State.writeData, h1, h2, hr, Bool.false_eq_true, if_false, Option.some.injEq, Nat.add_one_ne_zero, Option.any_none,
          Bool.not_false, Bool.true_or, if_true]
        rfl
      · change s.sys.budget.map (· - 1) = some k
        rw [h2]
        rfl
    have hb := State.between_alone (rest := rest) ha
    obtain ⟨r1, r2, r3⟩ := writeRun_struck (xs := rest) (seq := true) (s := t) ha (hd.trans h1) hbg
      fun x hx => by rw [hru]; exact h3 x (List.mem_cons_of_mem _ hx)
    rw [writeRun, hk]
    simp only [Bool.false_and, Bool.false_eq_true, if_false, Bool.or_self, hb]
    refine ⟨r1, ?_, ?_⟩
    · rw [r2, hm, hp, List.take_succ_cons, List.flatMap_cons, Memory.writeAll_append]
    · rw [r3, hl, List.length_cons]; omega
/-- Loading registers changes the register file and the list of written cells only. -/
theorem loadRegs_eq (m : BitVec 5) : ∀ (xs : List (Reg × Word)) (s : State),
    loadRegs m xs s = { s with regs := (loadRegs m xs s).regs, wrote := (loadRegs m xs s).wrote }
  | [], _ => rfl
  | (r, v) :: rest, s => by
    rw [loadRegs, loadRegs_eq m rest (s.setBankReg m r v)]
    by_cases h : r = 15#4 <;> simp [State.setBankReg, h]

/-- Loading registers changes only the cells of the listed ones. -/
theorem loadRegs_frame {m : BitVec 5} {k : Fin 30} : ∀ {xs : List (Reg × Word)} (s : State),
    (∀ x ∈ xs, x.1 ≠ 15#4 → bankIndex m x.1 ≠ k) → (loadRegs m xs s).regs.get k = s.regs.get k
  | [], _, _ => rfl
  | (r, v) :: rest, s, h => by
    rw [loadRegs, loadRegs_frame _ fun x hx => h x (List.mem_cons_of_mem _ hx), State.get_setBankReg, if_neg]
    rintro ⟨h1, h2⟩
    exact h (r, v) List.mem_cons_self h1 h2

/-- Each listed register holds its word. -/
theorem loadRegs_reads {m : BitVec 5} {x : Reg × Word} {xs : List (Reg × Word)} (s : State) (hn : (xs.map Prod.fst).Nodup)
    (hx : x ∈ xs) (h15 : x.1 ≠ 15#4) : (loadRegs m xs s).bankReg m x.1 = x.2 := by
  induction xs generalizing s with
  | nil => cases hx
  | cons z rest ih =>
    simp only [List.map_cons, List.nodup_cons] at hn
    rcases List.mem_cons.mp hx with rfl | hx
    · rw [loadRegs, State.bankReg, loadRegs_frame, State.get_setBankReg, if_pos ⟨h15, rfl⟩]
      intro y hy hy15 he
      have := bankIndex_inj m _ _ hy15 h15 he
      exact hn.1 (List.mem_map.mpr ⟨y, hy, this⟩)
    · exact ih _ hn.2 hx

/-- The registers that an aborted block load may leave free: the listed ones but the base. -/
theorem freeRegs_spec (m : BitVec 5) (base : Fin 30) : ∀ (rl : List Reg) (s : State),
    (∃ v w n, freeRegs m base rl s = { s with regs := v, wrote := w, draws := n }) ∧
      ∀ k : Fin 30, (k = base ∨ ∀ r ∈ rl, r ≠ 15#4 → bankIndex m r ≠ k) →
        (freeRegs m base rl s).regs.get k = s.regs.get k
  | [], s => ⟨⟨s.regs, s.wrote, s.draws, rfl⟩, fun _ _ => rfl⟩
  | r :: rest, s => by
    by_cases h : r = 15#4 ∨ bankIndex m r = base
    · obtain ⟨h1, h2⟩ := freeRegs_spec m base rest s
      refine ⟨by rw [freeRegs, if_pos h]; exact h1, fun k hk => ?_⟩
      rw [freeRegs, if_pos h]
      exact h2 k (hk.imp_right fun hk r hr => hk r (List.mem_cons_of_mem _ hr))
    · obtain ⟨⟨v, w, n, h1⟩, h2⟩ := freeRegs_spec m base rest ((s.setBankReg m r s.freeWord).drawn)
      rw [not_or] at h
      refine ⟨⟨v, w, n, ?_⟩, fun k hk => ?_⟩
      · rw [freeRegs, if_neg (not_or.mpr h), h1]
        simp [State.drawn, State.setBankReg, h.1]
      · rw [freeRegs, if_neg (not_or.mpr h), h2 k (hk.imp_right fun hk r hr => hk r (List.mem_cons_of_mem _ hr))]
        rw [State.drawn_regs, State.get_setBankReg, if_neg]
        rintro ⟨_, he⟩
        rcases hk with rfl | hk
        · exact h.2 he
        · exact hk r List.mem_cons_self h.1 he

/-! ## Block loads -/

theorem blockAddrs_length (start : Word) (n : Nat) : (blockAddrs start n).length = n := by simp [blockAddrs]

/-- A block load whose words are all answered goes on with the last word, every listed register loaded and the base written back. -/
theorem blockLoad_done {m : BitVec 5} {rl : List Reg} {start : Word} {rn : Reg} {wb : Option Word} {s : State}
    {fin : Word → State → Result} (h : BlockReadable s start rl.length) (hd : s.debugSpeed = false)
    (hb : s.sys.budget = none) (hn : rl.Nodup)
    (hwb : wb.isSome = true → rn ≠ 15#4 ∧ ∀ r ∈ rl, r ≠ 15#4 → bankIndex m r ≠ bankIndex s.mode rn) :
    ∃ t, blockLoad m rl start rn wb s fin =
        fin (pcWord ((blockAddrs start rl.length).map fun a => busWordAt s.pins.bigend s.mem a)) t ∧
      BlockLoadDone m rl start (wb.map fun v => (rn, v)) s t ∧ t.pc = s.pc ∧ t.cpsr = s.cpsr := by
  obtain ⟨-, -, ho, hm, -⟩ := readWords_spec (as := blockAddrs start rl.length) h.1 hd hb
  have hw := (readWords_ok h hd hb).1
  set ws := (blockAddrs start rl.length).map fun a => busWordAt s.pins.bigend s.mem a with hws
  set x := (readWords (blockAddrs start rl.length) s).2 with hx
  have hlen : ws.length = rl.length := by rw [hws, List.length_map, blockAddrs_length]
  have hz : (rl.zip ws).map Prod.fst = rl := List.map_fst_zip (by omega)
  set y := loadRegs m (rl.zip ws) x with hy
  have ye : y = { x with regs := y.regs, wrote := y.wrote } := loadRegs_eq m _ x
  have ymode : y.mode = s.mode := by rw [State.mode, ye]; exact ho.mode
  have frame : ∀ k : Fin 30, (∀ r ∈ rl, r ≠ 15#4 → bankIndex m r ≠ k) → y.regs.get k = s.regs.get k := by
    intro k hk
    rw [hy, loadRegs_frame, ho.regs]
    intro z hz'
    exact hk z.1 (by have := List.mem_map_of_mem (f := Prod.fst) hz'; rwa [hz] at this)
  refine ⟨y.writeBack (wb.map fun v => (rn, v)), ?_, ⟨?_, ?_, ?_, ?_, ?_, ?_⟩, ?_, ?_⟩
  · simp only [blockLoad, hw, ← hx]; rfl
  · intro k hk h15
    have hread : y.bankReg m rl[k] = ws[k]'(by omega) := by
      refine loadRegs_reads (x := (rl[k], ws[k]'(by omega))) x (by rw [hz]; exact hn) ?_ h15
      rw [List.mem_iff_getElem]
      exact ⟨k, by simp [hlen, hk], by simp⟩
    have hval : ws[k]'(by omega) = busWordAt s.pins.bigend s.mem (wordAddr start k) := by simp [hws, blockAddrs]
    rw [← hval, ← hread]
    cases wb with
    | none => rfl
    | some v =>
      obtain ⟨h1, h2⟩ := hwb rfl
      show ((y.setBankReg y.mode rn v).regs.get (bankIndex m rl[k])) = _
      rw [State.get_setBankReg, if_neg]
      · rfl
      · rintro ⟨_, he⟩
        rw [ymode] at he
        exact h2 rl[k] (List.getElem_mem hk) h15 he.symm
  · intro z hz'
    cases wb with
    | none => cases hz'
    | some v =>
      obtain rfl : (rn, v) = z := by simpa using hz'
      rw [← ymode]
      exact State.bankReg_setReg_same y rn v (hwb rfl).1
  · intro k hk hk'
    rw [← frame k hk]
    cases wb with
    | none => rfl
    | some v =>
      show (y.setBankReg y.mode rn v).regs.get k = _
      rw [State.get_setBankReg, if_neg]
      rintro ⟨_, he⟩
      rw [ymode] at he
      exact hk' (rn, v) (by simp) he
  · intro a
    rw [State.byteAt, State.writeBack_mem, ye]
    exact congrArg (Memory.read · a) hm
  · rw [State.writeBack_cop, ye]; exact ho.cop
  · rw [SameButAccesses]
    simp only [State.writeBack_spsr, State.writeBack_imem, State.writeBack_pins, State.writeBack_sys, State.writeBack_tap,
      State.writeBack_inReset, State.writeBack_schedule, State.writeBack_ice, State.writeBack_dbg]
    rw [ye]
    exact ⟨ho.spsr, ho.imem, ho.pins, ho.sys, ho.tap, ho.inReset, ho.schedule, ho.dbgCtl, ho.vecCatch, ho.commsRead,
      ho.commsWrite, ho.wBit, ho.rBit, ho.wCore, ho.rCore, ho.wDbg, ho.rDbg, ho.inDebug⟩
  · rw [State.writeBack_pc, ye]; exact ho.pc
  · rw [State.writeBack_cpsr, ye]; exact ho.cpsr

/-- The last word of a block. -/
theorem pcWord_block (s : State) (start : Word) {n : Nat} (h : n ≠ 0) :
    pcWord ((blockAddrs start n).map fun a => busWordAt s.pins.bigend s.mem a) =
      busWordAt s.pins.bigend s.mem (wordAddr start (n - 1)) := by
  obtain ⟨k, rfl⟩ := Nat.exists_eq_succ_of_ne_zero h
  simp [pcWord, blockAddrs, List.range_succ]

/-! ## Block stores -/

theorem byteAddr_aligned {a : Word} (h : a.toNat % 4 = 0) {i : Nat} (hi : i < 4) : byteAddr a i = a.toNat + i := by
  have := a.isLt
  simp only [byteAddr, BitVec.toNat_add, BitVec.toNat_ofNat]
  omega

theorem toNat_mask4 (a : Word) : (a &&& 0xFFFFFFFC#32).toNat = a.toNat - a.toNat % 4 := by
  have h : (a &&& 0xFFFFFFFC#32) + (a &&& 3#32) = a := by
    rw [BitVec.add_eq_or_of_and_eq_zero, ← BitVec.and_or_distrib_left]
    · exact BitVec.and_allOnes
    · rw [BitVec.and_assoc, ← BitVec.and_assoc (0xFFFFFFFC#32), BitVec.and_comm (0xFFFFFFFC#32), BitVec.and_assoc]
      simp
  have h3 : (a &&& 3#32).toNat = a.toNat % 4 := by
    rw [BitVec.toNat_and]
    exact Nat.and_two_pow_sub_one_eq_mod a.toNat 2
  have h2 := congrArg BitVec.toNat h
  rw [BitVec.toNat_add, h3] at h2
  have := (a &&& 0xFFFFFFFC#32).isLt
  have := a.isLt
  have hle : (a &&& 0xFFFFFFFC#32).toNat ≤ a.toNat := by rw [BitVec.toNat_and]; exact Nat.and_le_left
  omega

/-- The words of a block that does not wrap round onto itself stand at different places. -/
theorem blockBytes_nodup (big : Bool) (start : Word) (vals : List Word) (hl : vals.length ≤ 2 ^ 30) :
    ((blockBytes big start vals).map Prod.fst).Nodup := by
  have haddr : ∀ k, (wordAddr start k).toNat = (start.toNat + 4 * k) % 2 ^ 32 - (start.toNat + 4 * k) % 2 ^ 32 % 4 := by
    intro k
    rw [wordAddr, toNat_mask4]
    simp
  have hin : ∀ (k : Nat) (v : Word) (y : Nat × Byte), y ∈ storeBytes big .word (wordAddr start k) v →
      y.1 / 4 = (wordAddr start k).toNat / 4 := by
    intro k v y hy
    have h4 : (wordAddr start k &&& 0xFFFFFFFC#32) = wordAddr start k := by simp [wordAddr, BitVec.and_assoc]
    have hal : (wordAddr start k).toNat % 4 = 0 := by rw [haddr]; omega
    simp only [storeBytes, h4, List.mem_cons, List.not_mem_nil, or_false] at hy
    have b0 := byteAddr_aligned hal (show 0 < 4 by decide)
    have b1 := byteAddr_aligned hal (show 1 < 4 by decide)
    have b2 := byteAddr_aligned hal (show 2 < 4 by decide)
    have b3 := byteAddr_aligned hal (show 3 < 4 by decide)
    rcases hy with rfl | rfl | rfl | rfl <;> simp only [b0, b1, b2, b3] <;> omega
  rw [blockBytes, List.map_flatMap, List.nodup_flatMap]
  refine ⟨fun x _ => storeBytes_nodup .., ?_⟩
  have hp : vals.zipIdx.Pairwise fun x x' => x.2 < x'.2 := by
    rw [← List.pairwise_map (f := Prod.snd) (R := fun a b => a < b), List.zipIdx_map_snd]
    exact List.pairwise_lt_range'
  refine hp.imp_of_mem ?_
  intro x x' hx hx' hlt
  have hk' : x'.2 < vals.length := by have := List.snd_lt_of_mem_zipIdx hx'; omega
  intro z hz hz'
  obtain ⟨y, hy, rfl⟩ := List.mem_map.mp hz
  obtain ⟨y', hy', he⟩ := List.mem_map.mp hz'
  have e1 := hin _ _ _ hy
  have e2 := hin _ _ _ hy'
  rw [he, e1, haddr, haddr] at e2
  have := start.isLt
  omega

/-- A block store whose words are all accepted. -/
theorem writeWords_ok {s : State} {start : Word} {vals : List Word} (h : BlockWritable s start vals.length)
    (hd : s.debugSpeed = false) (hb : s.sys.budget = none) (hl : vals.length ≤ 2 ^ 30) :
    ∃ t, writeWords ((blockAddrs start vals.length).zip vals) s = (false, t) ∧ OnlyAccesses s t ∧
      Stored (blockBytes s.pins.bigend start vals) s t := by
  obtain ⟨h1, h2, h3⟩ := writeWords_spec (xs := (blockAddrs start vals.length).zip vals) h.1 hd hb
  have hz : (blockAddrs start vals.length).zip vals = vals.zipIdx.map fun x => (wordAddr start x.2, x.1) := by
    apply List.ext_getElem
    · simp [blockAddrs]
    · intro k _ _
      simp [blockAddrs]
  have hnone : ∀ x ∈ (blockAddrs start vals.length).zip vals, s.dataRule x.1 .word true false = none := by
    intro x hx
    obtain ⟨k, hk, he⟩ := List.mem_map.mp (List.of_mem_zip (a := x.1) (b := x.2) hx).1
    rw [← he]
    exact (h.2 k (List.mem_range.mp hk)).2.2
  have hany : (((blockAddrs start vals.length).zip vals).any fun x => s.dataAborts x.1 .word true false) = false := by
    rw [List.any_eq_false]
    intro x hx
    rw [State.dataAborts, hnone x hx]
    simp
  refine ⟨_, Prod.ext_iff.mpr ⟨by rw [h1, hany], rfl⟩, h2, ?_⟩
  refine stored_storeMem (t := s) (u := (writeWords ((blockAddrs start vals.length).zip vals) s).2)
    (bs := blockBytes s.pins.bigend start vals) rfl ?_ ?_ ?_
  · rw [h3 hnone, hz, blockBytes, List.flatMap_map]
  · intro y hy
    obtain ⟨x, _, hy⟩ := List.mem_flatMap.mp hy
    exact storeBytes_lt y hy
  · exact blockBytes_nodup _ _ _ hl

/-- `blockStore`, accepted by the memory system. -/
theorem blockStore_done {start : Word} {vals : List Word} {rn : Reg} {wb : Option Word} {s : State}
    (h : BlockWritable s start vals.length) (hd : s.debugSpeed = false) (hb : s.sys.budget = none) (hl : vals.length ≤ 2 ^ 30)
    (hwb : wb.isSome = true → rn ≠ 15#4) :
    ∃ t, blockStore start vals rn wb s = .next t ∧ BlockStoreDone start vals (wb.map fun v => (rn, v)) s t := by
  obtain ⟨t, h1, h2, h3⟩ := writeWords_ok h hd hb hl
  refine ⟨(t.writeBack (wb.map fun v => (rn, v))).advance, by rw [blockStore, h1], ?_, ?_, ?_, ?_, ?_, ?_, ?_⟩
  · refine ⟨fun x hx => ?_, fun hm y hy => ?_⟩
    · rw [← h3.1 x hx]; simp [State.byteAt]
    · rw [← h3.2 hm y hy]; simp [State.byteAt]
  · have := State.writeBack_reads t (wb.map fun v => (rn, v)) (by
      intro x hx
      cases wb with
      | none => cases hx
      | some v => obtain rfl : (rn, v) = x := by simpa using hx
                  exact hwb rfl)
    rw [h2.mode] at this
    exact this
  · have := OnlyRegs.writeBack t (wb.map fun v => (rn, v))
    rw [h2.mode] at this
    exact onlyRegs_from (onlyRegs_of_regs this rfl) h2.regs
  · simp [h2.cpsr]
  · simp [FallsThrough, h2.pc, h2.width]
  · simp [h2.cop]
  · simp only [SameButAccesses, State.advance_spsr, State.advance_imem, State.advance_pins, State.advance_sys,
      State.advance_tap, State.advance_inReset, State.advance_schedule, State.advance_ice, State.advance_dbg,
      State.writeBack_spsr, State.writeBack_imem, State.writeBack_pins, State.writeBack_sys, State.writeBack_tap,
      State.writeBack_inReset, State.writeBack_schedule, State.writeBack_ice, State.writeBack_dbg]
    exact ⟨h2.spsr, h2.imem, h2.pins, h2.sys, h2.tap, h2.inReset, h2.schedule, h2.dbgCtl, h2.vecCatch, h2.commsRead,
      h2.commsWrite, h2.wBit, h2.rBit, h2.wCore, h2.rCore, h2.wDbg, h2.rDbg, h2.inDebug⟩

/-- Writing a block one of whose words is aborted. -/
theorem writeWords_aborts {s : State} {start : Word} {vals : List Word} (h : BlockAborts s start vals.length true) :
    ∃ t, writeWords ((blockAddrs start vals.length).zip vals) s = (true, t) ∧ OnlyAccesses s t := by
  obtain ⟨h0, hd, hb, k, hk, hr⟩ := h
  obtain ⟨h1, h2, -⟩ := writeWords_spec (xs := (blockAddrs start vals.length).zip vals) h0 hd hb
  refine ⟨_, Prod.ext_iff.mpr ⟨?_, rfl⟩, h2⟩
  rw [h1, List.any_eq_true]
  refine ⟨(wordAddr start k, vals[k]), ?_, hr⟩
  rw [List.mem_iff_getElem]
  exact ⟨k, by simp [blockAddrs, hk], by simp [blockAddrs]⟩

/-- One word written puts all of its bytes in memory or none, and all of them where no rule speaks of it and none before it aborted. -/
theorem State.writeData_bytes {s : State} (a v : Word) (b : Beat) (late : Bool) (h1 : s.debugSpeed = false) (h2 : s.sys.budget = none) :
    ∃ bs, bs.Sublist (storeBytes s.pins.bigend .word a v) ∧
      (s.writeData a .word v false b late).2.mem = Memory.writeAll s.mem bs ∧
      (late = false → s.dataRule a .word true false = none → bs = storeBytes s.pins.bigend .word a v) := by
  cases hr : s.dataRule a .word true false with
  | none =>
    cases hl : !late || s.sys.lateStores with
    | true => exact ⟨_, List.Sublist.refl _, by simp [State.writeData, h1, h2, State.spend_eq h2, hr, hl], fun _ _ => rfl⟩
    | false =>
      refine ⟨[], List.nil_sublist _, by simp [State.writeData, h1, h2, State.spend_eq h2, hr, hl, Memory.writeAll], fun h => ?_⟩
      rw [h] at hl
      cases hl
  | some r =>
    cases hl : r.answer.lands with
    | true => exact ⟨_, List.Sublist.refl _, by simp [State.writeData, h1, h2, State.spend_eq h2, hr, hl], fun _ h => by cases h⟩
    | false =>
      exact ⟨[], List.nil_sublist _, by simp [State.writeData, h1, h2, State.spend_eq h2, hr, hl, Memory.writeAll],
        fun _ h => by cases h⟩

/-- What a run of words leaves in memory: some of its bytes, and all bytes of the words that no rule stands before. -/
theorem writeRun_bytes : ∀ {xs : List (Word × Word)} {seq late : Bool} {s : State}, Alone s → s.debugSpeed = false →
    s.sys.budget = none →
    ∃ bs, bs.Sublist (xs.flatMap fun x => storeBytes s.pins.bigend .word x.1 x.2) ∧
      (writeRun seq late xs s).2.mem = Memory.writeAll s.mem bs ∧
      (late = false → ∀ k (h : k < xs.length), (∀ j (_ : j < xs.length), j ≤ k → s.dataRule xs[j].1 .word true false = none) →
        ∀ y ∈ storeBytes s.pins.bigend .word xs[k].1 xs[k].2, y ∈ bs)
  | [], _, _, s, _, _, _ => ⟨[], List.Sublist.refl _, rfl, fun _ k h => absurd h (Nat.not_lt_zero k)⟩
  | (a, v) :: rest, seq, late, s, h0, h1, h2 => by
    obtain ⟨t, hk, ht, -⟩ := State.writeData_word a v ⟨false, seq, !rest.isEmpty⟩ late h1 h2
    obtain ⟨b1, hs1, hm1, hf1⟩ := State.writeData_bytes a v ⟨false, seq, !rest.isEmpty⟩ late h1 h2
    rw [hk] at hm1
    have h0' : Alone t := by rw [Alone, ht.sys]; exact h0
    obtain ⟨b2, hs2, hm2, hf2⟩ := writeRun_bytes (xs := rest) (seq := true) (late := late || s.dataAborts a .word true false) (s := t) h0'
      (by rw [ht.debugSpeed, h1]) (by rw [ht.sys, h2])
    simp only [ht.pins, ht.dataRule] at hs2 hf2
    have hno : ∀ {k : Nat}, k < ((a, v) :: rest).length →
        (∀ j (_ : j < ((a, v) :: rest).length), j ≤ k → s.dataRule ((a, v) :: rest)[j].1 .word true false = none) →
        s.dataRule a .word true false = none := fun h hall => hall 0 (by simp) (Nat.zero_le _)
    rw [writeRun, hk]
    dsimp only
    rw [State.between_alone h0']
    split
    · rename_i hc
      simp only [Bool.and_eq_true] at hc
      refine ⟨b1, hs1.trans (List.sublist_append_left _ _), hm1, fun _ k h hall => ?_⟩
      rw [State.dataAborts, hno h hall] at hc
      cases hc.1
    · refine ⟨b1 ++ b2, by rw [List.flatMap_cons]; exact hs1.append hs2, by rw [hm2, hm1, Memory.writeAll_append],
        fun hl k h hall y hy => ?_⟩
      have hn := hno h hall
      cases k with
      | zero => exact List.mem_append_left _ (by rw [hf1 hl hn]; exact hy)
      | succ k =>
        refine List.mem_append_right _ (hf2 (by simp [hl, State.dataAborts, hn]) k (by simpa using h) (fun j hj hjk => ?_) y hy)
        exact hall (j + 1) (by simpa using hj) (by omega)

/-- A block store one of whose words is aborted leaves memory partly written. -/
theorem writeWords_partly {s : State} {start : Word} {vals : List Word} (h0 : Alone s) (hd : s.debugSpeed = false)
    (hb : s.sys.budget = none) (hl : vals.length ≤ 2 ^ 30) :
    PartlyStored start vals s (writeWords ((blockAddrs start vals.length).zip vals) s).2 := by
  obtain ⟨bs, hs, hm, hf⟩ := writeRun_bytes (xs := (blockAddrs start vals.length).zip vals) (seq := false) (late := false) h0 hd hb
  rw [← writeWords] at hm
  have hz : (blockAddrs start vals.length).zip vals = vals.zipIdx.map fun x => (wordAddr start x.2, x.1) := by
    apply List.ext_getElem
    · simp [blockAddrs]
    · intro k _ _
      simp [blockAddrs]
  have hs' : bs.Sublist (blockBytes s.pins.bigend start vals) := by
    rw [hz, List.flatMap_map] at hs
    exact hs
  refine ⟨fun x hx => ?_, fun hwf k hk hall y hy => ?_⟩
  · rw [State.byteAt, hm, Memory.read_writeAll_ne _ fun y hy => hx y (hs'.subset hy)]
    rfl
  · rw [State.byteAt, hm]
    refine Memory.read_writeAll_mem hwf (fun z hz => ?_) ((blockBytes_nodup _ _ _ hl).sublist (hs'.map _)) ?_
    · obtain ⟨x, _, hx⟩ := List.mem_flatMap.mp (hs'.subset hz)
      exact storeBytes_lt z hx
    · refine hf rfl k (by simp [blockAddrs, hk]) (fun j hj hjk => ?_) y (by simpa [blockAddrs] using hy)
      simpa [blockAddrs] using hall j hjk

/-- A block load one of whose words is aborted. -/
theorem blockLoad_aborts {m : BitVec 5} {rl : List Reg} {start : Word} {rn : Reg} {wb : Option Word} {s : State}
    {fin : Word → State → Result} (h : BlockAborts s start rl.length false) :
    ∃ t : State, blockLoad m rl start rn wb s fin = .next t.takeDataAbort ∧ t.pc = s.pc ∧ t.cpsr = s.cpsr ∧ t.spsr = s.spsr ∧
      t.pins = s.pins ∧ t.mem = s.mem ∧
      ∀ k : Fin 30, (k = bankIndex s.mode rn ∨ ∀ r ∈ rl, r ≠ 15#4 → bankIndex m r ≠ k) → t.regs.get k = s.regs.get k := by
  have hnone := readWords_aborts h
  obtain ⟨-, -, ho, hm, -⟩ := readWords_spec (as := blockAddrs start rl.length) h.1 h.2.1 h.2.2.1
  obtain ⟨⟨v, w, n, he⟩, hf⟩ := freeRegs_spec m (bankIndex s.mode rn) rl (readWords (blockAddrs start rl.length) s).2
  refine ⟨freeRegs m (bankIndex s.mode rn) rl (readWords (blockAddrs start rl.length) s).2, ?_, ?_, ?_, ?_, ?_, ?_, ?_⟩
  · simp only [blockLoad, hnone]
  · rw [he]; exact ho.pc
  · rw [he]; exact ho.cpsr
  · rw [he]; exact ho.spsr
  · rw [he]; exact ho.pins
  · rw [he]; exact hm
  · intro k hk; rw [hf k hk, ho.regs]

end Sys2Proof.Machine
end

