-- ==== Sys2Proof/Laws/Control.lean ====
section
/-!
SUPPORT. Exception entry and return, branches, and the coprocessor handshake: one lemma per operation that says all it does.
-/

namespace Sys2Proof.Machine

/-! ## Bits of a PSR -/

theorem enterCpsr_bits (p : Word) (e : Exc) :
    bitT (enterCpsr p e) = false ∧ maskI (enterCpsr p e) = true ∧ maskF (enterCpsr p e) = (maskF p || e == .fiq) ∧
      (enterCpsr p e).extractLsb' 8 24 = p.extractLsb' 8 24 := by
  refine ⟨?_, ?_, ?_, ?_⟩
  · simp only [bitT, enterCpsr, BitVec.getLsbD_append]; rfl
  · simp only [maskI, enterCpsr, BitVec.getLsbD_append]; rfl
  · have : maskF (enterCpsr p e) = (bit (maskF p || e == .fiq)).getLsbD 0 := by
      simp only [maskF, enterCpsr, BitVec.getLsbD_append]; rfl
    rw [this]
    cases (maskF p || e == .fiq) <;> rfl
  · ext i hi
    have h1 : ¬ 8 + i < 5 := by omega
    have h2 : ¬ 8 + i - 5 < 1 := by omega
    have h3 : ¬ 8 + i - 5 - 1 < 1 := by omega
    have h4 : ¬ 8 + i - 5 - 1 - 1 < 1 := by omega
    have h5 : 8 + i - 5 - 1 - 1 - 1 = i := by omega
    simp only [BitVec.getElem_extractLsb', enterCpsr, BitVec.getLsbD_append, h1, h2, h3, h4, h5, if_false,
      BitVec.getLsbD_extractLsb', hi, decide_true, Bool.true_and]

/-! ## Entry -/

/-- Exception entry as a record: what every field becomes (60_exceptions.md R670). -/
theorem State.raise_enters (s : State) (e : Exc) (link : Word) : Enters e link s (s.raise e link) := by
  obtain ⟨k, hk⟩ := Exc.spsrIndex_isSome e
  obtain ⟨b1, b2, b3, b4⟩ := enterCpsr_bits s.cpsr e
  refine ⟨?_, ?_, ?_, ?_, ?_, b1, b2, b3, b4, rfl⟩
  · rw [bankReg_of_regs (t := s.raise e link) (s := s.setBankReg e.mode 14#4 link) (by simp [State.raise])]
    exact State.bankReg_setBankReg_same s e.mode 14#4 link (by decide)
  · exact onlyRegs_of_regs (OnlyRegs.setBankReg s e.mode 14#4 link) (by simp [State.raise])
  · simp [State.spsrOf, hk, State.raise, State.setSpsr, State.branchTo, State.setCpsr, Vector.get_eq_getElem]
  · intro j hj
    have hne : k ≠ j := fun h => hj (by rw [hk, h])
    simp only [State.raise, State.branchTo, State.setCpsr, State.setSpsr, hk]
    rw [Vector.get_eq_getElem, Vector.getElem_set_ne (h := fun h => hne (Fin.ext h)), State.setBankReg_spsr]
    rfl
  · exact enterCpsr_mode s.cpsr e

theorem State.raise_sameWorld (s : State) (e : Exc) (link : Word) : SameWorld s (s.raise e link) := by
  simp [SameWorld]

/-- Entry from a state that differs only in what entry does not read. -/
theorem Enters.from {e : Exc} {link : Word} {s t u : State} (h : Enters e link t u) (hr : t.regs = s.regs)
    (hc : t.cpsr = s.cpsr) (hs : t.spsr = s.spsr) (hp : t.pins = s.pins) : Enters e link s u := by
  obtain ⟨h1, h2, h3, h4, h5, h6, h7, h8, h9, h10⟩ := h
  exact ⟨h1, onlyRegs_from h2 hr, by rw [h3, hc], fun k hk => by rw [h4 k hk, hs], h5, h6, h7, by rw [h8, hc], by rw [h9, hc],
    by rw [h10, hp]⟩

/-- Entry into a state that goes on changing only what entry does not speak of. -/
theorem Enters.to {e : Exc} {link : Word} {s t u : State} (h : Enters e link s t) (hr : u.regs = t.regs)
    (hc : u.cpsr = t.cpsr) (hs : u.spsr = t.spsr) (hp : u.pc = t.pc) : Enters e link s u := by
  obtain ⟨h1, h2, h3, h4, h5, h6, h7, h8, h9, h10⟩ := h
  exact ⟨by rw [← h1]; simp [State.bankReg, hr], onlyRegs_of_regs h2 hr, by rw [← h3]; simp [State.spsrOf, hs],
    fun k hk => by rw [hs, h4 k hk], by rw [← h5]; simp [State.mode, hc], by rw [hc, h6], by rw [hc, h7], by rw [hc, h8],
    by rw [hc, h9], by rw [hp, h10]⟩

/-- The Data Abort is entered with the address + 8 as link; besides, only the coprocessors may be told of a cancelled
instruction. -/
theorem State.takeDataAbort_enters (s : State) : Enters .dataAbort (s.pc + 8#32) s s.takeDataAbort :=
  Enters.from (State.raise_enters s.cancelNext .dataAbort (s.pc + 8#32)) (by simp) (by simp) (by simp) (by simp)

theorem State.takeDataAbort_sameWorld (s : State) : SameWorld s s.takeDataAbort := by simp [SameWorld]

/-! ## Return -/

/-- An exception return in a mode whose SPSR holds a legal mode (60_exceptions.md R700). -/
theorem State.exceptionReturn_done {s : State} {p v : Word} (h : s.spsrOf s.mode = some p)
    (hl : legalMode (modeOf p) = true) :
    s.exceptionReturn v = .next ((s.setCpsr p).branchTo (returnTarget p v)) := by
  simp [State.exceptionReturn, h, hl]

theorem State.exceptionReturn_noSpsr {s : State} {v : Word} (h : s.spsrOf s.mode = none) :
    s.exceptionReturn v = .refused (.unpredictable .noSpsr) := by
  simp [State.exceptionReturn, h]

/-! ## Aborted transfers -/

/-- An aborted block load enters the Data Abort with the base as it was. -/
theorem blockLoad_aborted {m : BitVec 5} {rl : List Reg} {start : Word} {rn : Reg} {wb : Option Word} {s : State}
    {fin : Word → State → Result} (h : BlockAborts s start rl.length false) :
    ∃ t, blockLoad m rl start rn wb s fin = .next t ∧ BlockLoadAborted m rl rn s t := by
  obtain ⟨u, hu, h1, h2, h3, h4, h5, h6⟩ := blockLoad_aborts (m := m) (rn := rn) (wb := wb) (fin := fin) h
  have he := State.takeDataAbort_enters u
  obtain ⟨e1, e2, e3, -, e5, e6, e7, e8, -, e10⟩ := he
  refine ⟨_, hu, e5, by rw [h1] at e1; exact e1, by rw [h2] at e3; exact e3, e6, e7, ?_, ?_, ?_, ?_, ?_⟩
  · rw [h2] at e8
    have : (Exc.dataAbort == Exc.fiq) = false := rfl
    rw [this, Bool.or_false] at e8
    exact e8
  · rw [h4] at e10; exact e10
  · intro hne
    rw [State.bankReg, e2, h6 _ (.inl rfl)]
    · rfl
    · intro r hr _ he
      rw [List.mem_singleton] at hr
      exact hne (by rw [← he, hr]; rfl)
  · intro k hk hk'
    rw [e2, h6 k (.inr hk')]
    intro r hr _ he
    rw [List.mem_singleton] at hr
    exact hk (by rw [← he, hr]; rfl)
  · intro x
    rw [State.byteAt, State.takeDataAbort_mem, h5]
    rfl

/-- An aborted block store enters the Data Abort. -/
theorem blockStore_aborted {start : Word} {vals : List Word} {s : State} (h : BlockAborts s start vals.length true) :
    ∃ t, writeWords ((blockAddrs start vals.length).zip vals) s = (true, t) ∧
      Enters .dataAbort (s.pc + 8#32) s t.takeDataAbort := by
  obtain ⟨t, h1, h2⟩ := writeWords_aborts h
  refine ⟨t, h1, ?_⟩
  have := State.takeDataAbort_enters t
  rw [h2.pc] at this
  exact Enters.from this h2.regs h2.cpsr h2.spsr h2.pins

/-! ## Coprocessors -/

theorem handshake_absent {i : Instr} {s : State} {go : Nat → List Word → State → Result} {rest : List CpReply}
    (h : s.cop.replies = [] ∨ s.cop.replies = .absent :: rest) :
    ∃ t, handshake i s go = .next t ∧ Enters .undefined (s.pc + s.width) s t ∧ SameWorld s t := by
  rcases h with h | h
  · exact ⟨s.passed.takeUndefined, by simp [handshake, h], Enters.from (State.raise_enters s.passed .undefined (s.pc + s.width))
      rfl rfl rfl rfl, State.raise_sameWorld s.passed ..⟩
  · refine ⟨(s.passed.answered rest).takeUndefined, by simp [handshake, h], ?_, ?_⟩
    · exact Enters.from (State.raise_enters (s.passed.answered rest) .undefined (s.pc + s.width)) rfl rfl rfl rfl
    · simp [SameWorld, State.takeUndefined]

@[simp] theorem State.answered_cop (s : State) (l : List CpReply) : (s.answered l).cop = ⟨l, s.cop.log⟩ := rfl

@[simp] theorem State.tell_cop (s : State) (e : CpEvent) : (s.tell e).cop = ⟨s.cop.replies, s.cop.log ++ [e]⟩ := rfl

@[simp] theorem State.executed_privileged (s : State) (b : Bool) : (s.executed b).privileged = s.privileged := rfl

@[simp] theorem State.passed_width (s : State) : s.passed.width = s.width := rfl

@[simp] theorem State.answered_width (s : State) (l : List CpReply) : (s.answered l).width = s.width := rfl

@[simp] theorem State.tell_width (s : State) (e : CpEvent) : (s.tell e).width = s.width := rfl

@[simp] theorem State.copTransfer_width (s : State) (d : Option Word) (w : Bool) (v : Word) : (s.copTransfer d w v).width = s.width := rfl

/-- What a coprocessor transfer shows outlives every update that leaves the data interface alone. -/
theorem State.copTransfer_shown {s t : State} {d : Option Word} {write : Bool} {v : Word} {onDa : Prop}
    (h : t.port = (s.copTransfer d write v).port) (hd : onDa → d = some v) (hn : ¬ onDa → d = none) : CopShown write v onDa t := by
  refine ⟨_, d.isSome, h, rfl, rfl, rfl, rfl, fun x => by rw [hd x]; rfl, ?_, fun x => by rw [hd x]; rfl⟩
  intro hs
  by_contra hx
  rw [hn hx] at hs
  cases hs

theorem handshake_accept {i : Instr} {s : State} {go : Nat → List Word → State → Result} {n : Nat} {data : List Word}
    {rest : List CpReply} (h : Accepts s n data rest) :
    handshake i s go = go n data ((s.passed.answered rest).tell (.instr i s.privileged)) := by
  unfold Accepts at h
  simp [handshake, h]

end Sys2Proof.Machine
end

