-- ==== Sys2Proof/Laws/Cycle.lean ====
section
/-!
SUPPORT. The core's cycle: what filling the prefetch queue and sampling the interrupt inputs keep, what is then at the head of the
queue, and which step a boundary leads to.
-/

namespace Sys2Proof.Machine

/-! ## nRESET -/

/-- Outside debug state, and in a run that does not refuse it there, nRESET going LOW has its effect. -/
theorem State.struckBy_next {s : State} (h : s.dbg.inDebug = false ∨ s.pins.strict = false) (t : State) : s.struckBy t = .next t := by
  rcases h with h | h <;> simp [State.struckBy, h]

/-- In debug state it is refused in a run that makes the refusals of the spec (92_eei_decisions.md D16). -/
theorem State.struckBy_refused {s : State} (h : s.dbg.inDebug = true) (hs : s.pins.strict = true) (t : State) :
    s.struckBy t = .refused .resetInDebug := by
  simp [State.struckBy, h, hs]

/-! ## Filling the prefetch queue -/

/-- What a fetch keeps of the pipeline and the macrocell. -/
theorem State.fetchNext_keeps (s : State) : s.fetchNext.pipe.stale = s.pipe.stale ∧ s.fetchNext.pipe.wrapped = s.pipe.wrapped ∧
    s.fetchNext.pipe.userBank = s.pipe.userBank ∧ s.fetchNext.pipe.busyWait = s.pipe.busyWait ∧
    s.fetchNext.ice.dbgCtl = s.ice.dbgCtl ∧ s.fetchNext.ice.vecCatch = s.ice.vecCatch ∧ s.fetchNext.pins = s.pins ∧
    s.fetchNext.dbg = s.dbg := ⟨rfl, rfl, rfl, rfl, rfl, rfl, rfl, rfl⟩

theorem State.fill_keeps : ∀ (n : Nat) (s : State), (State.fill n s).pipe.stale = s.pipe.stale ∧
    (State.fill n s).pipe.wrapped = s.pipe.wrapped ∧ (State.fill n s).pipe.userBank = s.pipe.userBank ∧
    (State.fill n s).pipe.busyWait = s.pipe.busyWait ∧ (State.fill n s).ice.dbgCtl = s.ice.dbgCtl ∧
    (State.fill n s).ice.vecCatch = s.ice.vecCatch ∧ (State.fill n s).pins = s.pins ∧ (State.fill n s).dbg = s.dbg
  | 0, _ => ⟨rfl, rfl, rfl, rfl, rfl, rfl, rfl, rfl⟩
  | n + 1, s => State.fill_keeps n s.fetchNext

@[simp] theorem State.filled_stale (s : State) : s.filled.pipe.stale = s.pipe.stale := (State.fill_keeps _ s).1
@[simp] theorem State.filled_userBank (s : State) : s.filled.pipe.userBank = s.pipe.userBank := (State.fill_keeps _ s).2.2.1
@[simp] theorem State.filled_busyWait (s : State) : s.filled.pipe.busyWait = s.pipe.busyWait := (State.fill_keeps _ s).2.2.2.1
@[simp] theorem State.filled_dbgCtl (s : State) : s.filled.ice.dbgCtl = s.ice.dbgCtl := (State.fill_keeps _ s).2.2.2.2.1

@[simp] theorem dbgrqi_filled (s : State) : dbgrqi s.filled = dbgrqi s := by
  unfold dbgrqi
  rw [State.filled_dbgCtl]
  simp

@[simp] theorem ifen_filled (s : State) : ifen s.filled = ifen s := by
  unfold ifen
  rw [State.filled_dbgCtl]
  simp

/-- A fetch made ahead of a step is one of those the step would make. -/
theorem State.filled_fetchNext {s : State} (h : s.pipe.queue.length < 3) : s.fetchNext.filled = s.filled := by
  have e : 3 - s.pipe.queue.length = (3 - s.fetchNext.pipe.queue.length) + 1 := by simp [State.fetchNext]; omega
  rw [State.filled, State.filled, e, State.fill]

/-- What the fetch by itself leaves, where a step of the core would fetch. -/
theorem State.fetchStep_next {s : State} (h1 : s.inReset = false) (h2 : s.dbg.inDebug = false) (h3 : s.cutOff = false)
    (h4 : s.pipe.wrapped = false) (h5 : s.pipe.queue.length < 3) : s.fetchStep = .next s.fetchNext := by
  rw [State.fetchStep, h1, h2, h3, h4]
  simp
  omega

/-- The queue only grows at its end. -/
theorem State.fill_queue (n : Nat) : ∀ s : State, ∃ q, (State.fill n s).pipe.queue = s.pipe.queue ++ q := by
  induction n with
  | zero => exact fun s => ⟨[], by simp [State.fill]⟩
  | succ n ih =>
    intro s
    obtain ⟨q, h⟩ := ih s.fetchNext
    exact ⟨_ :: q, by rw [State.fill, h]; simp [State.fetchNext]; rfl⟩

/-- What is fetched already stays at the head. -/
theorem State.head_filled {s : State} {k : Slot} {q : List Slot} (h : s.pipe.queue = k :: q) : s.filled.head = k := by
  obtain ⟨r, hr⟩ := State.fill_queue (3 - s.pipe.queue.length) s
  rw [State.head, State.filled, hr, h]
  rfl

/-- With nothing fetched the head is the word at the PC, with its marks. -/
theorem State.head_filled_nil {s : State} (h : s.pipe.queue = []) : s.filled.head =
    ⟨s.fetchWord s.pc, (s.fetchRule s.pc).any fun r => r.answer.aborts,
      s.pins.dbgen && (s.pins.iebkpt || s.pipe.caught || Ice.hit s.ice s.pins s.fetchSeen)⟩ := by
  obtain ⟨r, hr⟩ := State.fill_queue 2 s.fetchNext
  have e : s.filled = State.fill 2 s.fetchNext := by rw [State.filled, h]; rfl
  rw [State.head, e, hr]
  simp [State.fetchNext, h, State.fetchAddr]

/-- The queue never holds more than three (10_state.md R77). -/
theorem State.fill_length : ∀ (n : Nat) (s : State), (State.fill n s).pipe.queue.length = s.pipe.queue.length + n
  | 0, _ => rfl
  | n + 1, s => by rw [State.fill, State.fill_length n]; simp [State.fetchNext]; omega

/-! ## Sampling the interrupt inputs -/

theorem Pins.forgotten_eq {p : Pins} (h : p.fiqPulse = false) (h' : p.irqPulse = false) : p.forgotten = p := by
  cases p
  simp only at h h'
  simp [Pins.forgotten, h, h']

/-- Sampling forgets withdrawn requests and changes nothing else but the count of free values. -/
theorem State.sampled_eq (s : State) : ∃ n, s.sampled = { s with pins := s.pins.forgotten, draws := n } := by
  unfold State.sampled
  split
  · exact ⟨s.draws + 2, rfl⟩
  · next h =>
    simp only [Bool.or_eq_true, not_or, Bool.not_eq_true] at h
    refine ⟨s.draws, ?_⟩
    rw [Pins.forgotten_eq h.1 h.2]

@[simp] theorem State.sampled_hivecs (s : State) : s.sampled.pins.hivecs = s.pins.hivecs := by
  unfold State.sampled; split <;> rfl
@[simp] theorem State.sampled_bigend (s : State) : s.sampled.pins.bigend = s.pins.bigend := by
  unfold State.sampled; split <;> rfl
@[simp] theorem State.sampled_head (s : State) : s.sampled.head = s.head := by simp [State.head]

/-! ## Entering debug state -/

/-- R15 on entry: five instructions on from where the program is to resume (61_debug.md R786, log 25). -/
theorem State.enterDebug_pcOperand (s : State) (c : DebugCause) : (s.enterDebug c).pcOperand = s.pc + 5#32 * s.width := by
  have e : (s.enterDebug c).pcOperand = if bitT s.cpsr then s.debugPc + 4#32 else s.debugPc + 8#32 := by
    simp [State.pcOperand, State.enterDebug]
  rw [e]
  unfold State.debugPc State.width
  cases bitT s.cpsr
  · simp only [Bool.false_eq_true, if_false, BitVec.add_assoc]; rfl
  · simp only [if_true, BitVec.add_assoc]; rfl

/-! ## Which step a boundary leads to -/

/-- The core's own step while nothing stands in its way. -/
theorem step_awake {s : State} (h : Awake s) : step s = s.filled.boundary := by
  obtain ⟨h1, h2, h3, h4, h5⟩ := h
  simp [step, h1, State.coreStep, h2, h3, h4, h5]

/-- A boundary at which nothing is due: the instruction enters execute. -/
theorem step_quiet {s : State} (h : Quiet s) : step s = s.filled.sampled.execute := by
  obtain ⟨h0, ⟨h1, h2, h3⟩, h4, h5, h6⟩ := h
  rw [step_awake h0]
  simp [State.boundary, State.watchDue, State.requestDue, h1, h2, h3, h4, h5]

/-- The fetched instruction runs. -/
theorem step_ready {s : State} (h : Ready s) : step s = s.filled.sampled.run s.filled.sampled.fetched := by
  obtain ⟨hq, ha, hm, hs⟩ := h
  have hb : s.pipe.busyWait = false := hq.2.2.2.2
  rw [step_quiet hq]
  simp only [State.fetchAborts, State.marked] at ha hm
  simp [State.execute, hb, State.fetchAborts, State.marked, ha, hm, hs]

end Sys2Proof.Machine
end

