-- ==== Sys2Proof/Laws/Exec.lean ====
section
/-!
SUPPORT. One lemma per instruction: when it runs, its meaning is this shared body on the state with INSTREXEC raised. Provers
rewrite with these and unfold neither `exec` nor a guard.
-/

namespace Sys2Proof.Machine

/-- A Thumb instruction without a defect runs in every state. -/
theorem runs_thumb {i : Instr} {s : State} (h : Instr.cond i = none) (hd : firstDefect (Instr.checks i) = none) : Runs i s := by
  simp [Runs, Instr.defect, passes, h, hd]

theorem firstDefect_cons {b : Bool} {d : Defect} {l : List (Bool × Defect)} :
    firstDefect ((b, d) :: l) = none ↔ b = false ∧ firstDefect l = none := by
  cases b <;> simp [firstDefect]

theorem firstDefect_append : ∀ {l l' : List (Bool × Defect)},
    firstDefect (l ++ l') = none ↔ firstDefect l = none ∧ firstDefect l' = none
  | [], l' => by simp [firstDefect]
  | (b, d) :: l, l' => by simp [List.cons_append, firstDefect_cons, firstDefect_append, and_assoc]

/-- No check of an instruction that runs finds a defect. -/
theorem Runs.checks {i : Instr} {s : State} (h : Runs i s) : firstDefect (Instr.checks i) = none := by
  have := h.1
  simp only [Instr.defect] at this
  split at this
  · cases this
  · exact this

theorem isPc_eq_false {r : Reg} : isPc r = false ↔ r ≠ 15#4 := by simp [isPc]

theorem run_mul {c : Cond} {s : Bool} {rd : Reg} {sbz : Reg} {rs : Reg} {rm : Reg} {st : State} (h : Runs (.mul c s rd sbz
    rs rm) st) :
    exec (.mul c s rd sbz rs rm) st = mulOp s rd (st.reg rm * st.reg rs) (st.executed true) := by
  rw [show exec (.mul c s rd sbz rs rm) st = execMul c s rd sbz rs rm st from rfl, execMul, armGuard_runs rfl h]; rfl

theorem run_mla {c : Cond} {s : Bool} {rd : Reg} {rn : Reg} {rs : Reg} {rm : Reg} {st : State} (h : Runs (.mla c s rd rn rs
    rm) st) :
    exec (.mla c s rd rn rs rm) st = mulOp s rd (st.reg rm * st.reg rs + st.reg rn) (st.executed true) := by
  rw [show exec (.mla c s rd rn rs rm) st = execMla c s rd rn rs rm st from rfl, execMla, armGuard_runs rfl h]; rfl

theorem run_umull {c : Cond} {s : Bool} {rdHi : Reg} {rdLo : Reg} {rs : Reg} {rm : Reg} {st : State} (h : Runs (.umull c s
    rdHi rdLo rs rm) st) :
    exec (.umull c s rdHi rdLo rs rm) st = mulLongOp s rdHi rdLo (umul (st.reg rm) (st.reg rs)) (st.executed true) := by
  rw [show exec (.umull c s rdHi rdLo rs rm) st = execUmull c s rdHi rdLo rs rm st from rfl, execUmull, armGuard_runs rfl
    h]; rfl

theorem run_umlal {c : Cond} {s : Bool} {rdHi : Reg} {rdLo : Reg} {rs : Reg} {rm : Reg} {st : State} (h : Runs (.umlal c s
    rdHi rdLo rs rm) st) :
    exec (.umlal c s rdHi rdLo rs rm) st = mulLongOp s rdHi rdLo (umul (st.reg rm) (st.reg rs) + accPair st rdHi rdLo)
      (st.executed true) := by
  rw [show exec (.umlal c s rdHi rdLo rs rm) st = execUmlal c s rdHi rdLo rs rm st from rfl, execUmlal, armGuard_runs rfl
    h]; rfl

theorem run_smull {c : Cond} {s : Bool} {rdHi : Reg} {rdLo : Reg} {rs : Reg} {rm : Reg} {st : State} (h : Runs (.smull c s
    rdHi rdLo rs rm) st) :
    exec (.smull c s rdHi rdLo rs rm) st = mulLongOp s rdHi rdLo (smul (st.reg rm) (st.reg rs)) (st.executed true) := by
  rw [show exec (.smull c s rdHi rdLo rs rm) st = execSmull c s rdHi rdLo rs rm st from rfl, execSmull, armGuard_runs rfl
    h]; rfl

theorem run_smlal {c : Cond} {s : Bool} {rdHi : Reg} {rdLo : Reg} {rs : Reg} {rm : Reg} {st : State} (h : Runs (.smlal c s
    rdHi rdLo rs rm) st) :
    exec (.smlal c s rdHi rdLo rs rm) st = mulLongOp s rdHi rdLo (smul (st.reg rm) (st.reg rs) + accPair st rdHi rdLo)
      (st.executed true) := by
  rw [show exec (.smlal c s rdHi rdLo rs rm) st = execSmlal c s rdHi rdLo rs rm st from rfl, execSmlal, armGuard_runs rfl
    h]; rfl

theorem run_undArith {c : Cond} {body : BitVec 28} {st : State} (h : Runs (.undArith c body) st) :
    exec (.undArith c body) st = undefinedOp (st.executed true) := by
  rw [show exec (.undArith c body) st = execUndArith c body st from rfl, execUndArith, armGuard_runs rfl h]

theorem run_swp {c : Cond} {rn : Reg} {rd : Reg} {sbz : Reg} {rm : Reg} {st : State} (h : Runs (.swp c rn rd sbz rm) st) :
    exec (.swp c rn rd sbz rm) st = swapOp .word rn rd rm (st.executed true) := by
  rw [show exec (.swp c rn rd sbz rm) st = execSwp c rn rd sbz rm st from rfl, execSwp, armGuard_runs rfl h]

theorem run_swpb {c : Cond} {rn : Reg} {rd : Reg} {sbz : Reg} {rm : Reg} {st : State} (h : Runs (.swpb c rn rd sbz rm) st) :
    exec (.swpb c rn rd sbz rm) st = swapOp .byte rn rd rm (st.executed true) := by
  rw [show exec (.swpb c rn rd sbz rm) st = execSwpb c rn rd sbz rm st from rfl, execSwpb, armGuard_runs rfl h]

theorem run_undLsA {c : Cond} {body : BitVec 28} {st : State} (h : Runs (.undLsA c body) st) :
    exec (.undLsA c body) st = undefinedOp (st.executed true) := by
  rw [show exec (.undLsA c body) st = execUndLsA c body st from rfl, execUndLsA, armGuard_runs rfl h]

theorem run_strh {c : Cond} {m : Mode3} {st : State} (h : Runs (.strh c m) st) :
    exec (.strh c m) st = store3 m (st.executed true) := by
  rw [show exec (.strh c m) st = execStrh c m st from rfl, execStrh, armGuard_runs rfl h]

theorem run_ldrh {c : Cond} {m : Mode3} {st : State} (h : Runs (.ldrh c m) st) :
    exec (.ldrh c m) st = load3 .half m (st.executed true) := by
  rw [show exec (.ldrh c m) st = execLdrh c m st from rfl, execLdrh, armGuard_runs rfl h]

theorem run_ldrsb {c : Cond} {m : Mode3} {st : State} (h : Runs (.ldrsb c m) st) :
    exec (.ldrsb c m) st = load3 .sbyte m (st.executed true) := by
  rw [show exec (.ldrsb c m) st = execLdrsb c m st from rfl, execLdrsb, armGuard_runs rfl h]

theorem run_ldrsh {c : Cond} {m : Mode3} {st : State} (h : Runs (.ldrsh c m) st) :
    exec (.ldrsh c m) st = load3 .shalf m (st.executed true) := by
  rw [show exec (.ldrsh c m) st = execLdrsh c m st from rfl, execLdrsh, armGuard_runs rfl h]

theorem run_undLsB {c : Cond} {body : BitVec 28} {st : State} (h : Runs (.undLsB c body) st) :
    exec (.undLsB c body) st = undefinedOp (st.executed true) := by
  rw [show exec (.undLsB c body) st = execUndLsB c body st from rfl, execUndLsB, armGuard_runs rfl h]

theorem run_mrs {c : Cond} {r : Bool} {sbo : Reg} {rd : Reg} {sbzHi : Reg} {sbzLo : Reg} {st : State} (h : Runs (.mrs c r
    sbo rd sbzHi sbzLo) st) :
    exec (.mrs c r sbo rd sbzHi sbzLo) st = readStatus r rd (st.executed true) := by
  rw [show exec (.mrs c r sbo rd sbzHi sbzLo) st = execMrs c r sbo rd sbzHi sbzLo st from rfl, execMrs, armGuard_runs rfl h]

theorem run_msrReg {c : Cond} {r : Bool} {mask : Reg} {sbo : Reg} {sbz : Reg} {rm : Reg} {st : State} (h : Runs (.msrReg c r
    mask sbo sbz rm) st) :
    exec (.msrReg c r mask sbo sbz rm) st = writeStatus r mask (st.reg rm) (st.executed true) := by
  rw [show exec (.msrReg c r mask sbo sbz rm) st = execMsrReg c r mask sbo sbz rm st from rfl, execMsrReg, armGuard_runs rfl
    h]; rfl

theorem run_bx {c : Cond} {sbo : BitVec 12} {rm : Reg} {st : State} (h : Runs (.bx c sbo rm) st) :
    exec (.bx c sbo rm) st = exchangeOp (st.reg rm) (st.executed true) := by
  rw [show exec (.bx c sbo rm) st = execBx c sbo rm st from rfl, execBx, armGuard_runs rfl h]; rfl

theorem run_undCtlReg {c : Cond} {body : BitVec 28} {st : State} (h : Runs (.undCtlReg c body) st) :
    exec (.undCtlReg c body) st = undefinedOp (st.executed true) := by
  rw [show exec (.undCtlReg c body) st = execUndCtlReg c body st from rfl, execUndCtlReg, armGuard_runs rfl h]

theorem run_andShiftImm {c : Cond} {s : Bool} {rn : Reg} {rd : Reg} {o : ShiftImm} {st : State} (h : Runs (.andShiftImm c s
    rn rd o) st) :
    exec (.andShiftImm c s rn rd o) st = dataOp .and s rd (st.reg rn) (op2ShiftImm st o) (st.executed true) := by
  rw [show exec (.andShiftImm c s rn rd o) st = execAndShiftImm c s rn rd o st from rfl, execAndShiftImm, armGuard_runs rfl
    h]; rfl

theorem run_andShiftReg {c : Cond} {s : Bool} {rn : Reg} {rd : Reg} {o : ShiftReg} {st : State} (h : Runs (.andShiftReg c s
    rn rd o) st) :
    exec (.andShiftReg c s rn rd o) st = dataOp .and s rd (st.reg rn) (op2ShiftReg st o) (st.executed true) := by
  rw [show exec (.andShiftReg c s rn rd o) st = execAndShiftReg c s rn rd o st from rfl, execAndShiftReg, armGuard_runs rfl
    h]; rfl

theorem run_eorShiftImm {c : Cond} {s : Bool} {rn : Reg} {rd : Reg} {o : ShiftImm} {st : State} (h : Runs (.eorShiftImm c s
    rn rd o) st) :
    exec (.eorShiftImm c s rn rd o) st = dataOp .eor s rd (st.reg rn) (op2ShiftImm st o) (st.executed true) := by
  rw [show exec (.eorShiftImm c s rn rd o) st = execEorShiftImm c s rn rd o st from rfl, execEorShiftImm, armGuard_runs rfl
    h]; rfl

theorem run_eorShiftReg {c : Cond} {s : Bool} {rn : Reg} {rd : Reg} {o : ShiftReg} {st : State} (h : Runs (.eorShiftReg c s
    rn rd o) st) :
    exec (.eorShiftReg c s rn rd o) st = dataOp .eor s rd (st.reg rn) (op2ShiftReg st o) (st.executed true) := by
  rw [show exec (.eorShiftReg c s rn rd o) st = execEorShiftReg c s rn rd o st from rfl, execEorShiftReg, armGuard_runs rfl
    h]; rfl

theorem run_subShiftImm {c : Cond} {s : Bool} {rn : Reg} {rd : Reg} {o : ShiftImm} {st : State} (h : Runs (.subShiftImm c s
    rn rd o) st) :
    exec (.subShiftImm c s rn rd o) st = dataOp .sub s rd (st.reg rn) (op2ShiftImm st o) (st.executed true) := by
  rw [show exec (.subShiftImm c s rn rd o) st = execSubShiftImm c s rn rd o st from rfl, execSubShiftImm, armGuard_runs rfl
    h]; rfl

theorem run_subShiftReg {c : Cond} {s : Bool} {rn : Reg} {rd : Reg} {o : ShiftReg} {st : State} (h : Runs (.subShiftReg c s
    rn rd o) st) :
    exec (.subShiftReg c s rn rd o) st = dataOp .sub s rd (st.reg rn) (op2ShiftReg st o) (st.executed true) := by
  rw [show exec (.subShiftReg c s rn rd o) st = execSubShiftReg c s rn rd o st from rfl, execSubShiftReg, armGuard_runs rfl
    h]; rfl

theorem run_rsbShiftImm {c : Cond} {s : Bool} {rn : Reg} {rd : Reg} {o : ShiftImm} {st : State} (h : Runs (.rsbShiftImm c s
    rn rd o) st) :
    exec (.rsbShiftImm c s rn rd o) st = dataOp .rsb s rd (st.reg rn) (op2ShiftImm st o) (st.executed true) := by
  rw [show exec (.rsbShiftImm c s rn rd o) st = execRsbShiftImm c s rn rd o st from rfl, execRsbShiftImm, armGuard_runs rfl
    h]; rfl

theorem run_rsbShiftReg {c : Cond} {s : Bool} {rn : Reg} {rd : Reg} {o : ShiftReg} {st : State} (h : Runs (.rsbShiftReg c s
    rn rd o) st) :
    exec (.rsbShiftReg c s rn rd o) st = dataOp .rsb s rd (st.reg rn) (op2ShiftReg st o) (st.executed true) := by
  rw [show exec (.rsbShiftReg c s rn rd o) st = execRsbShiftReg c s rn rd o st from rfl, execRsbShiftReg, armGuard_runs rfl
    h]; rfl

theorem run_addShiftImm {c : Cond} {s : Bool} {rn : Reg} {rd : Reg} {o : ShiftImm} {st : State} (h : Runs (.addShiftImm c s
    rn rd o) st) :
    exec (.addShiftImm c s rn rd o) st = dataOp .add s rd (st.reg rn) (op2ShiftImm st o) (st.executed true) := by
  rw [show exec (.addShiftImm c s rn rd o) st = execAddShiftImm c s rn rd o st from rfl, execAddShiftImm, armGuard_runs rfl
    h]; rfl

theorem run_addShiftReg {c : Cond} {s : Bool} {rn : Reg} {rd : Reg} {o : ShiftReg} {st : State} (h : Runs (.addShiftReg c s
    rn rd o) st) :
    exec (.addShiftReg c s rn rd o) st = dataOp .add s rd (st.reg rn) (op2ShiftReg st o) (st.executed true) := by
  rw [show exec (.addShiftReg c s rn rd o) st = execAddShiftReg c s rn rd o st from rfl, execAddShiftReg, armGuard_runs rfl
    h]; rfl

theorem run_adcShiftImm {c : Cond} {s : Bool} {rn : Reg} {rd : Reg} {o : ShiftImm} {st : State} (h : Runs (.adcShiftImm c s
    rn rd o) st) :
    exec (.adcShiftImm c s rn rd o) st = dataOp .adc s rd (st.reg rn) (op2ShiftImm st o) (st.executed true) := by
  rw [show exec (.adcShiftImm c s rn rd o) st = execAdcShiftImm c s rn rd o st from rfl, execAdcShiftImm, armGuard_runs rfl
    h]; rfl

theorem run_adcShiftReg {c : Cond} {s : Bool} {rn : Reg} {rd : Reg} {o : ShiftReg} {st : State} (h : Runs (.adcShiftReg c s
    rn rd o) st) :
    exec (.adcShiftReg c s rn rd o) st = dataOp .adc s rd (st.reg rn) (op2ShiftReg st o) (st.executed true) := by
  rw [show exec (.adcShiftReg c s rn rd o) st = execAdcShiftReg c s rn rd o st from rfl, execAdcShiftReg, armGuard_runs rfl
    h]; rfl

theorem run_sbcShiftImm {c : Cond} {s : Bool} {rn : Reg} {rd : Reg} {o : ShiftImm} {st : State} (h : Runs (.sbcShiftImm c s
    rn rd o) st) :
    exec (.sbcShiftImm c s rn rd o) st = dataOp .sbc s rd (st.reg rn) (op2ShiftImm st o) (st.executed true) := by
  rw [show exec (.sbcShiftImm c s rn rd o) st = execSbcShiftImm c s rn rd o st from rfl, execSbcShiftImm, armGuard_runs rfl
    h]; rfl

theorem run_sbcShiftReg {c : Cond} {s : Bool} {rn : Reg} {rd : Reg} {o : ShiftReg} {st : State} (h : Runs (.sbcShiftReg c s
    rn rd o) st) :
    exec (.sbcShiftReg c s rn rd o) st = dataOp .sbc s rd (st.reg rn) (op2ShiftReg st o) (st.executed true) := by
  rw [show exec (.sbcShiftReg c s rn rd o) st = execSbcShiftReg c s rn rd o st from rfl, execSbcShiftReg, armGuard_runs rfl
    h]; rfl

theorem run_rscShiftImm {c : Cond} {s : Bool} {rn : Reg} {rd : Reg} {o : ShiftImm} {st : State} (h : Runs (.rscShiftImm c s
    rn rd o) st) :
    exec (.rscShiftImm c s rn rd o) st = dataOp .rsc s rd (st.reg rn) (op2ShiftImm st o) (st.executed true) := by
  rw [show exec (.rscShiftImm c s rn rd o) st = execRscShiftImm c s rn rd o st from rfl, execRscShiftImm, armGuard_runs rfl
    h]; rfl

theorem run_rscShiftReg {c : Cond} {s : Bool} {rn : Reg} {rd : Reg} {o : ShiftReg} {st : State} (h : Runs (.rscShiftReg c s
    rn rd o) st) :
    exec (.rscShiftReg c s rn rd o) st = dataOp .rsc s rd (st.reg rn) (op2ShiftReg st o) (st.executed true) := by
  rw [show exec (.rscShiftReg c s rn rd o) st = execRscShiftReg c s rn rd o st from rfl, execRscShiftReg, armGuard_runs rfl
    h]; rfl

theorem run_tstShiftImm {c : Cond} {rn : Reg} {sbz : Reg} {o : ShiftImm} {st : State} (h : Runs (.tstShiftImm c rn sbz o)
    st) :
    exec (.tstShiftImm c rn sbz o) st = compareOp .tst (st.reg rn) (op2ShiftImm st o) (st.executed true) := by
  rw [show exec (.tstShiftImm c rn sbz o) st = execTstShiftImm c rn sbz o st from rfl, execTstShiftImm, armGuard_runs rfl
    h]; rfl

theorem run_tstShiftReg {c : Cond} {rn : Reg} {sbz : Reg} {o : ShiftReg} {st : State} (h : Runs (.tstShiftReg c rn sbz o)
    st) :
    exec (.tstShiftReg c rn sbz o) st = compareOp .tst (st.reg rn) (op2ShiftReg st o) (st.executed true) := by
  rw [show exec (.tstShiftReg c rn sbz o) st = execTstShiftReg c rn sbz o st from rfl, execTstShiftReg, armGuard_runs rfl
    h]; rfl

theorem run_teqShiftImm {c : Cond} {rn : Reg} {sbz : Reg} {o : ShiftImm} {st : State} (h : Runs (.teqShiftImm c rn sbz o)
    st) :
    exec (.teqShiftImm c rn sbz o) st = compareOp .teq (st.reg rn) (op2ShiftImm st o) (st.executed true) := by
  rw [show exec (.teqShiftImm c rn sbz o) st = execTeqShiftImm c rn sbz o st from rfl, execTeqShiftImm, armGuard_runs rfl
    h]; rfl

theorem run_teqShiftReg {c : Cond} {rn : Reg} {sbz : Reg} {o : ShiftReg} {st : State} (h : Runs (.teqShiftReg c rn sbz o)
    st) :
    exec (.teqShiftReg c rn sbz o) st = compareOp .teq (st.reg rn) (op2ShiftReg st o) (st.executed true) := by
  rw [show exec (.teqShiftReg c rn sbz o) st = execTeqShiftReg c rn sbz o st from rfl, execTeqShiftReg, armGuard_runs rfl
    h]; rfl

theorem run_cmpShiftImm {c : Cond} {rn : Reg} {sbz : Reg} {o : ShiftImm} {st : State} (h : Runs (.cmpShiftImm c rn sbz o)
    st) :
    exec (.cmpShiftImm c rn sbz o) st = compareOp .cmp (st.reg rn) (op2ShiftImm st o) (st.executed true) := by
  rw [show exec (.cmpShiftImm c rn sbz o) st = execCmpShiftImm c rn sbz o st from rfl, execCmpShiftImm, armGuard_runs rfl
    h]; rfl

theorem run_cmpShiftReg {c : Cond} {rn : Reg} {sbz : Reg} {o : ShiftReg} {st : State} (h : Runs (.cmpShiftReg c rn sbz o)
    st) :
    exec (.cmpShiftReg c rn sbz o) st = compareOp .cmp (st.reg rn) (op2ShiftReg st o) (st.executed true) := by
  rw [show exec (.cmpShiftReg c rn sbz o) st = execCmpShiftReg c rn sbz o st from rfl, execCmpShiftReg, armGuard_runs rfl
    h]; rfl

theorem run_cmnShiftImm {c : Cond} {rn : Reg} {sbz : Reg} {o : ShiftImm} {st : State} (h : Runs (.cmnShiftImm c rn sbz o)
    st) :
    exec (.cmnShiftImm c rn sbz o) st = compareOp .cmn (st.reg rn) (op2ShiftImm st o) (st.executed true) := by
  rw [show exec (.cmnShiftImm c rn sbz o) st = execCmnShiftImm c rn sbz o st from rfl, execCmnShiftImm, armGuard_runs rfl
    h]; rfl

theorem run_cmnShiftReg {c : Cond} {rn : Reg} {sbz : Reg} {o : ShiftReg} {st : State} (h : Runs (.cmnShiftReg c rn sbz o)
    st) :
    exec (.cmnShiftReg c rn sbz o) st = compareOp .cmn (st.reg rn) (op2ShiftReg st o) (st.executed true) := by
  rw [show exec (.cmnShiftReg c rn sbz o) st = execCmnShiftReg c rn sbz o st from rfl, execCmnShiftReg, armGuard_runs rfl
    h]; rfl

theorem run_orrShiftImm {c : Cond} {s : Bool} {rn : Reg} {rd : Reg} {o : ShiftImm} {st : State} (h : Runs (.orrShiftImm c s
    rn rd o) st) :
    exec (.orrShiftImm c s rn rd o) st = dataOp .orr s rd (st.reg rn) (op2ShiftImm st o) (st.executed true) := by
  rw [show exec (.orrShiftImm c s rn rd o) st = execOrrShiftImm c s rn rd o st from rfl, execOrrShiftImm, armGuard_runs rfl
    h]; rfl

theorem run_orrShiftReg {c : Cond} {s : Bool} {rn : Reg} {rd : Reg} {o : ShiftReg} {st : State} (h : Runs (.orrShiftReg c s
    rn rd o) st) :
    exec (.orrShiftReg c s rn rd o) st = dataOp .orr s rd (st.reg rn) (op2ShiftReg st o) (st.executed true) := by
  rw [show exec (.orrShiftReg c s rn rd o) st = execOrrShiftReg c s rn rd o st from rfl, execOrrShiftReg, armGuard_runs rfl
    h]; rfl

theorem run_movShiftImm {c : Cond} {s : Bool} {sbz : Reg} {rd : Reg} {o : ShiftImm} {st : State} (h : Runs (.movShiftImm c s
    sbz rd o) st) :
    exec (.movShiftImm c s sbz rd o) st = dataOp .mov s rd 0#32 (op2ShiftImm st o) (st.executed true) := by
  rw [show exec (.movShiftImm c s sbz rd o) st = execMovShiftImm c s sbz rd o st from rfl, execMovShiftImm, armGuard_runs
    rfl h]; rfl

theorem run_movShiftReg {c : Cond} {s : Bool} {sbz : Reg} {rd : Reg} {o : ShiftReg} {st : State} (h : Runs (.movShiftReg c s
    sbz rd o) st) :
    exec (.movShiftReg c s sbz rd o) st = dataOp .mov s rd 0#32 (op2ShiftReg st o) (st.executed true) := by
  rw [show exec (.movShiftReg c s sbz rd o) st = execMovShiftReg c s sbz rd o st from rfl, execMovShiftReg, armGuard_runs
    rfl h]; rfl

theorem run_bicShiftImm {c : Cond} {s : Bool} {rn : Reg} {rd : Reg} {o : ShiftImm} {st : State} (h : Runs (.bicShiftImm c s
    rn rd o) st) :
    exec (.bicShiftImm c s rn rd o) st = dataOp .bic s rd (st.reg rn) (op2ShiftImm st o) (st.executed true) := by
  rw [show exec (.bicShiftImm c s rn rd o) st = execBicShiftImm c s rn rd o st from rfl, execBicShiftImm, armGuard_runs rfl
    h]; rfl

theorem run_bicShiftReg {c : Cond} {s : Bool} {rn : Reg} {rd : Reg} {o : ShiftReg} {st : State} (h : Runs (.bicShiftReg c s
    rn rd o) st) :
    exec (.bicShiftReg c s rn rd o) st = dataOp .bic s rd (st.reg rn) (op2ShiftReg st o) (st.executed true) := by
  rw [show exec (.bicShiftReg c s rn rd o) st = execBicShiftReg c s rn rd o st from rfl, execBicShiftReg, armGuard_runs rfl
    h]; rfl

theorem run_mvnShiftImm {c : Cond} {s : Bool} {sbz : Reg} {rd : Reg} {o : ShiftImm} {st : State} (h : Runs (.mvnShiftImm c s
    sbz rd o) st) :
    exec (.mvnShiftImm c s sbz rd o) st = dataOp .mvn s rd 0#32 (op2ShiftImm st o) (st.executed true) := by
  rw [show exec (.mvnShiftImm c s sbz rd o) st = execMvnShiftImm c s sbz rd o st from rfl, execMvnShiftImm, armGuard_runs
    rfl h]; rfl

theorem run_mvnShiftReg {c : Cond} {s : Bool} {sbz : Reg} {rd : Reg} {o : ShiftReg} {st : State} (h : Runs (.mvnShiftReg c s
    sbz rd o) st) :
    exec (.mvnShiftReg c s sbz rd o) st = dataOp .mvn s rd 0#32 (op2ShiftReg st o) (st.executed true) := by
  rw [show exec (.mvnShiftReg c s sbz rd o) st = execMvnShiftReg c s sbz rd o st from rfl, execMvnShiftReg, armGuard_runs
    rfl h]; rfl

theorem run_msrImm {c : Cond} {r : Bool} {mask : Reg} {sbo : Reg} {o : RotImm} {st : State} (h : Runs (.msrImm c r mask sbo
    o) st) :
    exec (.msrImm c r mask sbo o) st = writeStatus r mask (RotImm.value o) (st.executed true) := by
  rw [show exec (.msrImm c r mask sbo o) st = execMsrImm c r mask sbo o st from rfl, execMsrImm, armGuard_runs rfl h]

theorem run_undCtlImm {c : Cond} {body : BitVec 28} {st : State} (h : Runs (.undCtlImm c body) st) :
    exec (.undCtlImm c body) st = undefinedOp (st.executed true) := by
  rw [show exec (.undCtlImm c body) st = execUndCtlImm c body st from rfl, execUndCtlImm, armGuard_runs rfl h]

theorem run_andImm {c : Cond} {s : Bool} {rn : Reg} {rd : Reg} {o : RotImm} {st : State} (h : Runs (.andImm c s rn rd o) st)
    :
    exec (.andImm c s rn rd o) st = dataOp .and s rd (st.reg rn) (op2Imm st o) (st.executed true) := by
  rw [show exec (.andImm c s rn rd o) st = execAndImm c s rn rd o st from rfl, execAndImm, armGuard_runs rfl h]; rfl

theorem run_eorImm {c : Cond} {s : Bool} {rn : Reg} {rd : Reg} {o : RotImm} {st : State} (h : Runs (.eorImm c s rn rd o) st)
    :
    exec (.eorImm c s rn rd o) st = dataOp .eor s rd (st.reg rn) (op2Imm st o) (st.executed true) := by
  rw [show exec (.eorImm c s rn rd o) st = execEorImm c s rn rd o st from rfl, execEorImm, armGuard_runs rfl h]; rfl

theorem run_subImm {c : Cond} {s : Bool} {rn : Reg} {rd : Reg} {o : RotImm} {st : State} (h : Runs (.subImm c s rn rd o) st)
    :
    exec (.subImm c s rn rd o) st = dataOp .sub s rd (st.reg rn) (op2Imm st o) (st.executed true) := by
  rw [show exec (.subImm c s rn rd o) st = execSubImm c s rn rd o st from rfl, execSubImm, armGuard_runs rfl h]; rfl

theorem run_rsbImm {c : Cond} {s : Bool} {rn : Reg} {rd : Reg} {o : RotImm} {st : State} (h : Runs (.rsbImm c s rn rd o) st)
    :
    exec (.rsbImm c s rn rd o) st = dataOp .rsb s rd (st.reg rn) (op2Imm st o) (st.executed true) := by
  rw [show exec (.rsbImm c s rn rd o) st = execRsbImm c s rn rd o st from rfl, execRsbImm, armGuard_runs rfl h]; rfl

theorem run_addImm {c : Cond} {s : Bool} {rn : Reg} {rd : Reg} {o : RotImm} {st : State} (h : Runs (.addImm c s rn rd o) st)
    :
    exec (.addImm c s rn rd o) st = dataOp .add s rd (st.reg rn) (op2Imm st o) (st.executed true) := by
  rw [show exec (.addImm c s rn rd o) st = execAddImm c s rn rd o st from rfl, execAddImm, armGuard_runs rfl h]; rfl

theorem run_adcImm {c : Cond} {s : Bool} {rn : Reg} {rd : Reg} {o : RotImm} {st : State} (h : Runs (.adcImm c s rn rd o) st)
    :
    exec (.adcImm c s rn rd o) st = dataOp .adc s rd (st.reg rn) (op2Imm st o) (st.executed true) := by
  rw [show exec (.adcImm c s rn rd o) st = execAdcImm c s rn rd o st from rfl, execAdcImm, armGuard_runs rfl h]; rfl

theorem run_sbcImm {c : Cond} {s : Bool} {rn : Reg} {rd : Reg} {o : RotImm} {st : State} (h : Runs (.sbcImm c s rn rd o) st)
    :
    exec (.sbcImm c s rn rd o) st = dataOp .sbc s rd (st.reg rn) (op2Imm st o) (st.executed true) := by
  rw [show exec (.sbcImm c s rn rd o) st = execSbcImm c s rn rd o st from rfl, execSbcImm, armGuard_runs rfl h]; rfl

theorem run_rscImm {c : Cond} {s : Bool} {rn : Reg} {rd : Reg} {o : RotImm} {st : State} (h : Runs (.rscImm c s rn rd o) st)
    :
    exec (.rscImm c s rn rd o) st = dataOp .rsc s rd (st.reg rn) (op2Imm st o) (st.executed true) := by
  rw [show exec (.rscImm c s rn rd o) st = execRscImm c s rn rd o st from rfl, execRscImm, armGuard_runs rfl h]; rfl

theorem run_tstImm {c : Cond} {rn : Reg} {sbz : Reg} {o : RotImm} {st : State} (h : Runs (.tstImm c rn sbz o) st) :
    exec (.tstImm c rn sbz o) st = compareOp .tst (st.reg rn) (op2Imm st o) (st.executed true) := by
  rw [show exec (.tstImm c rn sbz o) st = execTstImm c rn sbz o st from rfl, execTstImm, armGuard_runs rfl h]; rfl

theorem run_teqImm {c : Cond} {rn : Reg} {sbz : Reg} {o : RotImm} {st : State} (h : Runs (.teqImm c rn sbz o) st) :
    exec (.teqImm c rn sbz o) st = compareOp .teq (st.reg rn) (op2Imm st o) (st.executed true) := by
  rw [show exec (.teqImm c rn sbz o) st = execTeqImm c rn sbz o st from rfl, execTeqImm, armGuard_runs rfl h]; rfl

theorem run_cmpImm {c : Cond} {rn : Reg} {sbz : Reg} {o : RotImm} {st : State} (h : Runs (.cmpImm c rn sbz o) st) :
    exec (.cmpImm c rn sbz o) st = compareOp .cmp (st.reg rn) (op2Imm st o) (st.executed true) := by
  rw [show exec (.cmpImm c rn sbz o) st = execCmpImm c rn sbz o st from rfl, execCmpImm, armGuard_runs rfl h]; rfl

theorem run_cmnImm {c : Cond} {rn : Reg} {sbz : Reg} {o : RotImm} {st : State} (h : Runs (.cmnImm c rn sbz o) st) :
    exec (.cmnImm c rn sbz o) st = compareOp .cmn (st.reg rn) (op2Imm st o) (st.executed true) := by
  rw [show exec (.cmnImm c rn sbz o) st = execCmnImm c rn sbz o st from rfl, execCmnImm, armGuard_runs rfl h]; rfl

theorem run_orrImm {c : Cond} {s : Bool} {rn : Reg} {rd : Reg} {o : RotImm} {st : State} (h : Runs (.orrImm c s rn rd o) st)
    :
    exec (.orrImm c s rn rd o) st = dataOp .orr s rd (st.reg rn) (op2Imm st o) (st.executed true) := by
  rw [show exec (.orrImm c s rn rd o) st = execOrrImm c s rn rd o st from rfl, execOrrImm, armGuard_runs rfl h]; rfl

theorem run_movImm {c : Cond} {s : Bool} {sbz : Reg} {rd : Reg} {o : RotImm} {st : State} (h : Runs (.movImm c s sbz rd o)
    st) :
    exec (.movImm c s sbz rd o) st = dataOp .mov s rd 0#32 (op2Imm st o) (st.executed true) := by
  rw [show exec (.movImm c s sbz rd o) st = execMovImm c s sbz rd o st from rfl, execMovImm, armGuard_runs rfl h]; rfl

theorem run_bicImm {c : Cond} {s : Bool} {rn : Reg} {rd : Reg} {o : RotImm} {st : State} (h : Runs (.bicImm c s rn rd o) st)
    :
    exec (.bicImm c s rn rd o) st = dataOp .bic s rd (st.reg rn) (op2Imm st o) (st.executed true) := by
  rw [show exec (.bicImm c s rn rd o) st = execBicImm c s rn rd o st from rfl, execBicImm, armGuard_runs rfl h]; rfl

theorem run_mvnImm {c : Cond} {s : Bool} {sbz : Reg} {rd : Reg} {o : RotImm} {st : State} (h : Runs (.mvnImm c s sbz rd o)
    st) :
    exec (.mvnImm c s sbz rd o) st = dataOp .mvn s rd 0#32 (op2Imm st o) (st.executed true) := by
  rw [show exec (.mvnImm c s sbz rd o) st = execMvnImm c s sbz rd o st from rfl, execMvnImm, armGuard_runs rfl h]; rfl

theorem run_strtImm {c : Cond} {u : Bool} {rn : Reg} {rd : Reg} {imm : BitVec 12} {st : State} (h : Runs (.strtImm c u rn rd
    imm) st) :
    exec (.strtImm c u rn rd imm) st = storeUser .word u rn rd (imm12Offset imm) (st.executed true) := by
  rw [show exec (.strtImm c u rn rd imm) st = execStrtImm c u rn rd imm st from rfl, execStrtImm, armGuard_runs rfl h]

theorem run_ldrtImm {c : Cond} {u : Bool} {rn : Reg} {rd : Reg} {imm : BitVec 12} {st : State} (h : Runs (.ldrtImm c u rn rd
    imm) st) :
    exec (.ldrtImm c u rn rd imm) st = loadUser .word u rn rd (imm12Offset imm) (st.executed true) := by
  rw [show exec (.ldrtImm c u rn rd imm) st = execLdrtImm c u rn rd imm st from rfl, execLdrtImm, armGuard_runs rfl h]

theorem run_strbtImm {c : Cond} {u : Bool} {rn : Reg} {rd : Reg} {imm : BitVec 12} {st : State} (h : Runs (.strbtImm c u rn
    rd imm) st) :
    exec (.strbtImm c u rn rd imm) st = storeUser .byte u rn rd (imm12Offset imm) (st.executed true) := by
  rw [show exec (.strbtImm c u rn rd imm) st = execStrbtImm c u rn rd imm st from rfl, execStrbtImm, armGuard_runs rfl h]

theorem run_ldrbtImm {c : Cond} {u : Bool} {rn : Reg} {rd : Reg} {imm : BitVec 12} {st : State} (h : Runs (.ldrbtImm c u rn
    rd imm) st) :
    exec (.ldrbtImm c u rn rd imm) st = loadUser .byte u rn rd (imm12Offset imm) (st.executed true) := by
  rw [show exec (.ldrbtImm c u rn rd imm) st = execLdrbtImm c u rn rd imm st from rfl, execLdrbtImm, armGuard_runs rfl h]

theorem run_strImm {c : Cond} {a : Mode2} {imm : BitVec 12} {st : State} (h : Runs (.strImm c a imm) st) :
    exec (.strImm c a imm) st = store2 .word a (imm12Offset imm) (st.executed true) := by
  rw [show exec (.strImm c a imm) st = execStrImm c a imm st from rfl, execStrImm, armGuard_runs rfl h]

theorem run_ldrImm {c : Cond} {a : Mode2} {imm : BitVec 12} {st : State} (h : Runs (.ldrImm c a imm) st) :
    exec (.ldrImm c a imm) st = load2 .word a (imm12Offset imm) (st.executed true) := by
  rw [show exec (.ldrImm c a imm) st = execLdrImm c a imm st from rfl, execLdrImm, armGuard_runs rfl h]

theorem run_strbImm {c : Cond} {a : Mode2} {imm : BitVec 12} {st : State} (h : Runs (.strbImm c a imm) st) :
    exec (.strbImm c a imm) st = store2 .byte a (imm12Offset imm) (st.executed true) := by
  rw [show exec (.strbImm c a imm) st = execStrbImm c a imm st from rfl, execStrbImm, armGuard_runs rfl h]

theorem run_ldrbImm {c : Cond} {a : Mode2} {imm : BitVec 12} {st : State} (h : Runs (.ldrbImm c a imm) st) :
    exec (.ldrbImm c a imm) st = load2 .byte a (imm12Offset imm) (st.executed true) := by
  rw [show exec (.ldrbImm c a imm) st = execLdrbImm c a imm st from rfl, execLdrbImm, armGuard_runs rfl h]

theorem run_undSpace {c : Cond} {body : BitVec 28} {st : State} (h : Runs (.undSpace c body) st) :
    exec (.undSpace c body) st = undefinedOp (st.executed true) := by
  rw [show exec (.undSpace c body) st = execUndSpace c body st from rfl, execUndSpace, armGuard_runs rfl h]

theorem run_strtReg {c : Cond} {u : Bool} {rn : Reg} {rd : Reg} {o : ShiftImm} {st : State} (h : Runs (.strtReg c u rn rd o)
    st) :
    exec (.strtReg c u rn rd o) st = storeUser .word u rn rd (shiftedOffset st o) (st.executed true) := by
  rw [show exec (.strtReg c u rn rd o) st = execStrtReg c u rn rd o st from rfl, execStrtReg, armGuard_runs rfl h]; rfl

theorem run_ldrtReg {c : Cond} {u : Bool} {rn : Reg} {rd : Reg} {o : ShiftImm} {st : State} (h : Runs (.ldrtReg c u rn rd o)
    st) :
    exec (.ldrtReg c u rn rd o) st = loadUser .word u rn rd (shiftedOffset st o) (st.executed true) := by
  rw [show exec (.ldrtReg c u rn rd o) st = execLdrtReg c u rn rd o st from rfl, execLdrtReg, armGuard_runs rfl h]; rfl

theorem run_strbtReg {c : Cond} {u : Bool} {rn : Reg} {rd : Reg} {o : ShiftImm} {st : State} (h : Runs (.strbtReg c u rn rd
    o) st) :
    exec (.strbtReg c u rn rd o) st = storeUser .byte u rn rd (shiftedOffset st o) (st.executed true) := by
  rw [show exec (.strbtReg c u rn rd o) st = execStrbtReg c u rn rd o st from rfl, execStrbtReg, armGuard_runs rfl h]; rfl

theorem run_ldrbtReg {c : Cond} {u : Bool} {rn : Reg} {rd : Reg} {o : ShiftImm} {st : State} (h : Runs (.ldrbtReg c u rn rd
    o) st) :
    exec (.ldrbtReg c u rn rd o) st = loadUser .byte u rn rd (shiftedOffset st o) (st.executed true) := by
  rw [show exec (.ldrbtReg c u rn rd o) st = execLdrbtReg c u rn rd o st from rfl, execLdrbtReg, armGuard_runs rfl h]; rfl

theorem run_strReg {c : Cond} {a : Mode2} {o : ShiftImm} {st : State} (h : Runs (.strReg c a o) st) :
    exec (.strReg c a o) st = store2 .word a (shiftedOffset st o) (st.executed true) := by
  rw [show exec (.strReg c a o) st = execStrReg c a o st from rfl, execStrReg, armGuard_runs rfl h]; rfl

theorem run_ldrReg {c : Cond} {a : Mode2} {o : ShiftImm} {st : State} (h : Runs (.ldrReg c a o) st) :
    exec (.ldrReg c a o) st = load2 .word a (shiftedOffset st o) (st.executed true) := by
  rw [show exec (.ldrReg c a o) st = execLdrReg c a o st from rfl, execLdrReg, armGuard_runs rfl h]; rfl

theorem run_strbReg {c : Cond} {a : Mode2} {o : ShiftImm} {st : State} (h : Runs (.strbReg c a o) st) :
    exec (.strbReg c a o) st = store2 .byte a (shiftedOffset st o) (st.executed true) := by
  rw [show exec (.strbReg c a o) st = execStrbReg c a o st from rfl, execStrbReg, armGuard_runs rfl h]; rfl

theorem run_ldrbReg {c : Cond} {a : Mode2} {o : ShiftImm} {st : State} (h : Runs (.ldrbReg c a o) st) :
    exec (.ldrbReg c a o) st = load2 .byte a (shiftedOffset st o) (st.executed true) := by
  rw [show exec (.ldrbReg c a o) st = execLdrbReg c a o st from rfl, execLdrbReg, armGuard_runs rfl h]; rfl

theorem run_stm1 {c : Cond} {p : Bool} {u : Bool} {w : Bool} {rn : Reg} {list : BitVec 16} {st : State} (h : Runs (.stm1 c p
    u w rn list) st) :
    exec (.stm1 c p u w rn list) st = stmPlain p u w rn list (st.executed true) := by
  rw [show exec (.stm1 c p u w rn list) st = execStm1 c p u w rn list st from rfl, execStm1, armGuard_runs rfl h]

theorem run_ldm1 {c : Cond} {p : Bool} {u : Bool} {w : Bool} {rn : Reg} {list : BitVec 16} {st : State} (h : Runs (.ldm1 c p
    u w rn list) st) :
    exec (.ldm1 c p u w rn list) st = ldmPlain p u w rn list (st.executed true) := by
  rw [show exec (.ldm1 c p u w rn list) st = execLdm1 c p u w rn list st from rfl, execLdm1, armGuard_runs rfl h]

theorem run_stm2 {c : Cond} {p : Bool} {u : Bool} {w : Bool} {rn : Reg} {list : BitVec 16} {st : State} (h : Runs (.stm2 c p
    u w rn list) st) :
    exec (.stm2 c p u w rn list) st = stmUser p u rn list (st.executed true) := by
  rw [show exec (.stm2 c p u w rn list) st = execStm2 c p u w rn list st from rfl, execStm2, armGuard_runs rfl h]

theorem run_ldm2 {c : Cond} {p : Bool} {u : Bool} {w : Bool} {rn : Reg} {list : BitVec 15} {st : State} (h : Runs (.ldm2 c p
    u w rn list) st) :
    exec (.ldm2 c p u w rn list) st = ldmUser p u rn list (st.executed true) := by
  rw [show exec (.ldm2 c p u w rn list) st = execLdm2 c p u w rn list st from rfl, execLdm2, armGuard_runs rfl h]

theorem run_ldm3 {c : Cond} {p : Bool} {u : Bool} {w : Bool} {rn : Reg} {list : BitVec 15} {st : State} (h : Runs (.ldm3 c p
    u w rn list) st) :
    exec (.ldm3 c p u w rn list) st = ldmReturn p u w rn list (st.executed true) := by
  rw [show exec (.ldm3 c p u w rn list) st = execLdm3 c p u w rn list st from rfl, execLdm3, armGuard_runs rfl h]

theorem run_b {c : Cond} {off : BitVec 24} {st : State} (h : Runs (.b c off) st) :
    exec (.b c off) st = branchOp off (st.executed true) := by
  rw [show exec (.b c off) st = execB c off st from rfl, execB, armGuard_runs rfl h]

theorem run_bl {c : Cond} {off : BitVec 24} {st : State} (h : Runs (.bl c off) st) :
    exec (.bl c off) st = branchLinkOp off (st.executed true) := by
  rw [show exec (.bl c off) st = execBl c off st from rfl, execBl, armGuard_runs rfl h]

theorem run_undCop {c : Cond} {body : BitVec 28} {st : State} (h : Runs (.undCop c body) st) :
    exec (.undCop c body) st = undefinedOp (st.executed true) := by
  rw [show exec (.undCop c body) st = execUndCop c body st from rfl, execUndCop, armGuard_runs rfl h]

theorem run_stc {c : Cond} {m : CopMem} {st : State} (h : Runs (.stc c m) st) :
    exec (.stc c m) st = stcOp (.stc c m) m (st.executed true) := by
  rw [show exec (.stc c m) st = execStc c m st from rfl, execStc, armGuard_runs rfl h]

theorem run_ldc {c : Cond} {m : CopMem} {st : State} (h : Runs (.ldc c m) st) :
    exec (.ldc c m) st = ldcOp (.ldc c m) m (st.executed true) := by
  rw [show exec (.ldc c m) st = execLdc c m st from rfl, execLdc, armGuard_runs rfl h]

theorem run_cdp {c : Cond} {o : CopData} {st : State} (h : Runs (.cdp c o) st) :
    exec (.cdp c o) st = cdpOp (.cdp c o) o (st.executed true) := by
  rw [show exec (.cdp c o) st = execCdp c o st from rfl, execCdp, armGuard_runs rfl h]

theorem run_mcr {c : Cond} {o : CopReg} {st : State} (h : Runs (.mcr c o) st) :
    exec (.mcr c o) st = mcrOp (.mcr c o) o (st.executed true) := by
  rw [show exec (.mcr c o) st = execMcr c o st from rfl, execMcr, armGuard_runs rfl h]

theorem run_mrc {c : Cond} {o : CopReg} {st : State} (h : Runs (.mrc c o) st) :
    exec (.mrc c o) st = mrcOp (.mrc c o) o (st.executed true) := by
  rw [show exec (.mrc c o) st = execMrc c o st from rfl, execMrc, armGuard_runs rfl h]

theorem run_swi {c : Cond} {imm : BitVec 24} {st : State} (h : Runs (.swi c imm) st) :
    exec (.swi c imm) st = swiOp (st.executed true) := by
  rw [show exec (.swi c imm) st = execSwi c imm st from rfl, execSwi, armGuard_runs rfl h]

theorem run_tLslImm {n : BitVec 5} {rs : LowReg} {rd : LowReg} {st : State} (h : Runs (.tLslImm n rs rd) st) :
    exec (.tLslImm n rs rd) st = thumbShift rd (shiftByImm .lsl (st.reg (lowReg rs)) n.toNat (flagC st.cpsr)) (st.executed
      true) := by
  rw [show exec (.tLslImm n rs rd) st = execTLslImm n rs rd st from rfl, execTLslImm, thumbGuard_runs rfl h]; rfl

theorem run_tLsrImm {n : BitVec 5} {rs : LowReg} {rd : LowReg} {st : State} (h : Runs (.tLsrImm n rs rd) st) :
    exec (.tLsrImm n rs rd) st = thumbShift rd (shiftByImm .lsr (st.reg (lowReg rs)) n.toNat (flagC st.cpsr)) (st.executed
      true) := by
  rw [show exec (.tLsrImm n rs rd) st = execTLsrImm n rs rd st from rfl, execTLsrImm, thumbGuard_runs rfl h]; rfl

theorem run_tAsrImm {n : BitVec 5} {rs : LowReg} {rd : LowReg} {st : State} (h : Runs (.tAsrImm n rs rd) st) :
    exec (.tAsrImm n rs rd) st = thumbShift rd (shiftByImm .asr (st.reg (lowReg rs)) n.toNat (flagC st.cpsr)) (st.executed
      true) := by
  rw [show exec (.tAsrImm n rs rd) st = execTAsrImm n rs rd st from rfl, execTAsrImm, thumbGuard_runs rfl h]; rfl

theorem run_tAddReg {rn : LowReg} {rs : LowReg} {rd : LowReg} {st : State} (h : Runs (.tAddReg rn rs rd) st) :
    exec (.tAddReg rn rs rd) st = thumbAlu rd (addition (st.reg (lowReg rs)) (st.reg (lowReg rn)) false) (st.executed true)
      := by
  rw [show exec (.tAddReg rn rs rd) st = execTAddReg rn rs rd st from rfl, execTAddReg, thumbGuard_runs rfl h]; rfl

theorem run_tSubReg {rn : LowReg} {rs : LowReg} {rd : LowReg} {st : State} (h : Runs (.tSubReg rn rs rd) st) :
    exec (.tSubReg rn rs rd) st = thumbAlu rd (subtraction (st.reg (lowReg rs)) (st.reg (lowReg rn)) false) (st.executed
      true) := by
  rw [show exec (.tSubReg rn rs rd) st = execTSubReg rn rs rd st from rfl, execTSubReg, thumbGuard_runs rfl h]; rfl

theorem run_tAddImm3 {n : BitVec 3} {rs : LowReg} {rd : LowReg} {st : State} (h : Runs (.tAddImm3 n rs rd) st) :
    exec (.tAddImm3 n rs rd) st = thumbAlu rd (addition (st.reg (lowReg rs)) (n.setWidth 32) false) (st.executed true) := by
  rw [show exec (.tAddImm3 n rs rd) st = execTAddImm3 n rs rd st from rfl, execTAddImm3, thumbGuard_runs rfl h]; rfl

theorem run_tSubImm3 {n : BitVec 3} {rs : LowReg} {rd : LowReg} {st : State} (h : Runs (.tSubImm3 n rs rd) st) :
    exec (.tSubImm3 n rs rd) st = thumbAlu rd (subtraction (st.reg (lowReg rs)) (n.setWidth 32) false) (st.executed true) :=
      by
  rw [show exec (.tSubImm3 n rs rd) st = execTSubImm3 n rs rd st from rfl, execTSubImm3, thumbGuard_runs rfl h]; rfl

theorem run_tMovImm {rd : LowReg} {n : BitVec 8} {st : State} (h : Runs (.tMovImm rd n) st) :
    exec (.tMovImm rd n) st = thumbAlu rd (logical st.cpsr (n.setWidth 32) (flagC st.cpsr)) (st.executed true) := by
  rw [show exec (.tMovImm rd n) st = execTMovImm rd n st from rfl, execTMovImm, thumbGuard_runs rfl h]; rfl

theorem run_tCmpImm {rd : LowReg} {n : BitVec 8} {st : State} (h : Runs (.tCmpImm rd n) st) :
    exec (.tCmpImm rd n) st = thumbFlags (subtraction (st.reg (lowReg rd)) (n.setWidth 32) false) (st.executed true) := by
  rw [show exec (.tCmpImm rd n) st = execTCmpImm rd n st from rfl, execTCmpImm, thumbGuard_runs rfl h]; rfl

theorem run_tAddImm {rd : LowReg} {n : BitVec 8} {st : State} (h : Runs (.tAddImm rd n) st) :
    exec (.tAddImm rd n) st = thumbAlu rd (addition (st.reg (lowReg rd)) (n.setWidth 32) false) (st.executed true) := by
  rw [show exec (.tAddImm rd n) st = execTAddImm rd n st from rfl, execTAddImm, thumbGuard_runs rfl h]; rfl

theorem run_tSubImm {rd : LowReg} {n : BitVec 8} {st : State} (h : Runs (.tSubImm rd n) st) :
    exec (.tSubImm rd n) st = thumbAlu rd (subtraction (st.reg (lowReg rd)) (n.setWidth 32) false) (st.executed true) := by
  rw [show exec (.tSubImm rd n) st = execTSubImm rd n st from rfl, execTSubImm, thumbGuard_runs rfl h]; rfl

theorem run_tAnd {rs : LowReg} {rd : LowReg} {st : State} (h : Runs (.tAnd rs rd) st) :
    exec (.tAnd rs rd) st = thumbAlu rd (alu .and st.cpsr (st.reg (lowReg rd)) (st.reg (lowReg rs)) (flagC st.cpsr))
      (st.executed true) := by
  rw [show exec (.tAnd rs rd) st = execTAnd rs rd st from rfl, execTAnd, thumbGuard_runs rfl h]; rfl

theorem run_tEor {rs : LowReg} {rd : LowReg} {st : State} (h : Runs (.tEor rs rd) st) :
    exec (.tEor rs rd) st = thumbAlu rd (alu .eor st.cpsr (st.reg (lowReg rd)) (st.reg (lowReg rs)) (flagC st.cpsr))
      (st.executed true) := by
  rw [show exec (.tEor rs rd) st = execTEor rs rd st from rfl, execTEor, thumbGuard_runs rfl h]; rfl

theorem run_tLsl {rs : LowReg} {rd : LowReg} {st : State} (h : Runs (.tLsl rs rd) st) :
    exec (.tLsl rs rd) st = thumbShift rd (shiftByReg .lsl (st.reg (lowReg rd)) ((st.reg (lowReg rs)).extractLsb' 0 8).toNat
      (flagC st.cpsr)) (st.executed true) := by
  rw [show exec (.tLsl rs rd) st = execTLsl rs rd st from rfl, execTLsl, thumbGuard_runs rfl h]; rfl

theorem run_tLsr {rs : LowReg} {rd : LowReg} {st : State} (h : Runs (.tLsr rs rd) st) :
    exec (.tLsr rs rd) st = thumbShift rd (shiftByReg .lsr (st.reg (lowReg rd)) ((st.reg (lowReg rs)).extractLsb' 0 8).toNat
      (flagC st.cpsr)) (st.executed true) := by
  rw [show exec (.tLsr rs rd) st = execTLsr rs rd st from rfl, execTLsr, thumbGuard_runs rfl h]; rfl

theorem run_tAsr {rs : LowReg} {rd : LowReg} {st : State} (h : Runs (.tAsr rs rd) st) :
    exec (.tAsr rs rd) st = thumbShift rd (shiftByReg .asr (st.reg (lowReg rd)) ((st.reg (lowReg rs)).extractLsb' 0 8).toNat
      (flagC st.cpsr)) (st.executed true) := by
  rw [show exec (.tAsr rs rd) st = execTAsr rs rd st from rfl, execTAsr, thumbGuard_runs rfl h]; rfl

theorem run_tAdc {rs : LowReg} {rd : LowReg} {st : State} (h : Runs (.tAdc rs rd) st) :
    exec (.tAdc rs rd) st = thumbAlu rd (alu .adc st.cpsr (st.reg (lowReg rd)) (st.reg (lowReg rs)) (flagC st.cpsr))
      (st.executed true) := by
  rw [show exec (.tAdc rs rd) st = execTAdc rs rd st from rfl, execTAdc, thumbGuard_runs rfl h]; rfl

theorem run_tSbc {rs : LowReg} {rd : LowReg} {st : State} (h : Runs (.tSbc rs rd) st) :
    exec (.tSbc rs rd) st = thumbAlu rd (alu .sbc st.cpsr (st.reg (lowReg rd)) (st.reg (lowReg rs)) (flagC st.cpsr))
      (st.executed true) := by
  rw [show exec (.tSbc rs rd) st = execTSbc rs rd st from rfl, execTSbc, thumbGuard_runs rfl h]; rfl

theorem run_tRor {rs : LowReg} {rd : LowReg} {st : State} (h : Runs (.tRor rs rd) st) :
    exec (.tRor rs rd) st = thumbShift rd (shiftByReg .ror (st.reg (lowReg rd)) ((st.reg (lowReg rs)).extractLsb' 0 8).toNat
      (flagC st.cpsr)) (st.executed true) := by
  rw [show exec (.tRor rs rd) st = execTRor rs rd st from rfl, execTRor, thumbGuard_runs rfl h]; rfl

theorem run_tTst {rs : LowReg} {rd : LowReg} {st : State} (h : Runs (.tTst rs rd) st) :
    exec (.tTst rs rd) st = thumbFlags (alu .tst st.cpsr (st.reg (lowReg rd)) (st.reg (lowReg rs)) (flagC st.cpsr))
      (st.executed true) := by
  rw [show exec (.tTst rs rd) st = execTTst rs rd st from rfl, execTTst, thumbGuard_runs rfl h]; rfl

theorem run_tNeg {rs : LowReg} {rd : LowReg} {st : State} (h : Runs (.tNeg rs rd) st) :
    exec (.tNeg rs rd) st = thumbAlu rd (subtraction 0#32 (st.reg (lowReg rs)) false) (st.executed true) := by
  rw [show exec (.tNeg rs rd) st = execTNeg rs rd st from rfl, execTNeg, thumbGuard_runs rfl h]; rfl

theorem run_tCmp {rs : LowReg} {rd : LowReg} {st : State} (h : Runs (.tCmp rs rd) st) :
    exec (.tCmp rs rd) st = thumbFlags (alu .cmp st.cpsr (st.reg (lowReg rd)) (st.reg (lowReg rs)) (flagC st.cpsr))
      (st.executed true) := by
  rw [show exec (.tCmp rs rd) st = execTCmp rs rd st from rfl, execTCmp, thumbGuard_runs rfl h]; rfl

theorem run_tCmn {rs : LowReg} {rd : LowReg} {st : State} (h : Runs (.tCmn rs rd) st) :
    exec (.tCmn rs rd) st = thumbFlags (alu .cmn st.cpsr (st.reg (lowReg rd)) (st.reg (lowReg rs)) (flagC st.cpsr))
      (st.executed true) := by
  rw [show exec (.tCmn rs rd) st = execTCmn rs rd st from rfl, execTCmn, thumbGuard_runs rfl h]; rfl

theorem run_tOrr {rs : LowReg} {rd : LowReg} {st : State} (h : Runs (.tOrr rs rd) st) :
    exec (.tOrr rs rd) st = thumbAlu rd (alu .orr st.cpsr (st.reg (lowReg rd)) (st.reg (lowReg rs)) (flagC st.cpsr))
      (st.executed true) := by
  rw [show exec (.tOrr rs rd) st = execTOrr rs rd st from rfl, execTOrr, thumbGuard_runs rfl h]; rfl

theorem run_tMul {rs : LowReg} {rd : LowReg} {st : State} (h : Runs (.tMul rs rd) st) :
    exec (.tMul rs rd) st = mulOp true (lowReg rd) (st.reg (lowReg rd) * st.reg (lowReg rs)) (st.executed true) := by
  rw [show exec (.tMul rs rd) st = execTMul rs rd st from rfl, execTMul, thumbGuard_runs rfl h]; rfl

theorem run_tBic {rs : LowReg} {rd : LowReg} {st : State} (h : Runs (.tBic rs rd) st) :
    exec (.tBic rs rd) st = thumbAlu rd (alu .bic st.cpsr (st.reg (lowReg rd)) (st.reg (lowReg rs)) (flagC st.cpsr))
      (st.executed true) := by
  rw [show exec (.tBic rs rd) st = execTBic rs rd st from rfl, execTBic, thumbGuard_runs rfl h]; rfl

theorem run_tMvn {rs : LowReg} {rd : LowReg} {st : State} (h : Runs (.tMvn rs rd) st) :
    exec (.tMvn rs rd) st = thumbAlu rd (alu .mvn st.cpsr 0#32 (st.reg (lowReg rs)) (flagC st.cpsr)) (st.executed true) := by
  rw [show exec (.tMvn rs rd) st = execTMvn rs rd st from rfl, execTMvn, thumbGuard_runs rfl h]; rfl

theorem run_tAddHi {h1 : Bool} {h2 : Bool} {rs : LowReg} {rd : LowReg} {st : State} (h : Runs (.tAddHi h1 h2 rs rd) st) :
    exec (.tAddHi h1 h2 rs rd) st = thumbWrite (hiReg h1 rd) (st.reg (hiReg h1 rd) + st.reg (hiReg h2 rs)) (st.executed
      true) := by
  rw [show exec (.tAddHi h1 h2 rs rd) st = execTAddHi h1 h2 rs rd st from rfl, execTAddHi, thumbGuard_runs rfl h]; rfl

theorem run_tCmpHi {h1 : Bool} {h2 : Bool} {rs : LowReg} {rd : LowReg} {st : State} (h : Runs (.tCmpHi h1 h2 rs rd) st) :
    exec (.tCmpHi h1 h2 rs rd) st = thumbFlags (subtraction (st.reg (hiReg h1 rd)) (st.reg (hiReg h2 rs)) false)
      (st.executed true) := by
  rw [show exec (.tCmpHi h1 h2 rs rd) st = execTCmpHi h1 h2 rs rd st from rfl, execTCmpHi, thumbGuard_runs rfl h]; rfl

theorem run_tMovHi {h1 : Bool} {h2 : Bool} {rs : LowReg} {rd : LowReg} {st : State} (h : Runs (.tMovHi h1 h2 rs rd) st) :
    exec (.tMovHi h1 h2 rs rd) st = thumbWrite (hiReg h1 rd) (st.reg (hiReg h2 rs)) (st.executed true) := by
  rw [show exec (.tMovHi h1 h2 rs rd) st = execTMovHi h1 h2 rs rd st from rfl, execTMovHi, thumbGuard_runs rfl h]; rfl

theorem run_tBx {h1 : Bool} {h2 : Bool} {rs : LowReg} {sbz : BitVec 3} {st : State} (h : Runs (.tBx h1 h2 rs sbz) st) :
    exec (.tBx h1 h2 rs sbz) st = exchangeOp (st.reg (hiReg h2 rs)) (st.executed true) := by
  rw [show exec (.tBx h1 h2 rs sbz) st = execTBx h1 h2 rs sbz st from rfl, execTBx, thumbGuard_runs rfl h]; rfl

theorem run_tLdrPc {rd : LowReg} {n : BitVec 8} {st : State} (h : Runs (.tLdrPc rd n) st) :
    exec (.tLdrPc rd n) st = thumbLoadWord ((st.pcOperand &&& 0xFFFFFFFC#32) + ((n ++ 0#2).setWidth 32)) rd (st.executed
      true) := by
  rw [show exec (.tLdrPc rd n) st = execTLdrPc rd n st from rfl, execTLdrPc, thumbGuard_runs rfl h]; rfl

theorem run_tStrReg {ro : LowReg} {rb : LowReg} {rd : LowReg} {st : State} (h : Runs (.tStrReg ro rb rd) st) :
    exec (.tStrReg ro rb rd) st = thumbStoreWord (st.reg (lowReg rb) + st.reg (lowReg ro)) rd (st.executed true) := by
  rw [show exec (.tStrReg ro rb rd) st = execTStrReg ro rb rd st from rfl, execTStrReg, thumbGuard_runs rfl h]; rfl

theorem run_tStrhReg {ro : LowReg} {rb : LowReg} {rd : LowReg} {st : State} (h : Runs (.tStrhReg ro rb rd) st) :
    exec (.tStrhReg ro rb rd) st = storeOp .half (st.reg (lowReg rb) + st.reg (lowReg ro)) (st.reg (lowReg rd)) false none
      (st.executed true) := by
  rw [show exec (.tStrhReg ro rb rd) st = execTStrhReg ro rb rd st from rfl, execTStrhReg, thumbGuard_runs rfl h]; rfl

theorem run_tStrbReg {ro : LowReg} {rb : LowReg} {rd : LowReg} {st : State} (h : Runs (.tStrbReg ro rb rd) st) :
    exec (.tStrbReg ro rb rd) st = storeOp .byte (st.reg (lowReg rb) + st.reg (lowReg ro)) (st.reg (lowReg rd)) false none
      (st.executed true) := by
  rw [show exec (.tStrbReg ro rb rd) st = execTStrbReg ro rb rd st from rfl, execTStrbReg, thumbGuard_runs rfl h]; rfl

theorem run_tLdsbReg {ro : LowReg} {rb : LowReg} {rd : LowReg} {st : State} (h : Runs (.tLdsbReg ro rb rd) st) :
    exec (.tLdsbReg ro rb rd) st = loadOp .sbyte (st.reg (lowReg rb) + st.reg (lowReg ro)) false none (lowReg rd)
      (st.executed true) := by
  rw [show exec (.tLdsbReg ro rb rd) st = execTLdsbReg ro rb rd st from rfl, execTLdsbReg, thumbGuard_runs rfl h]; rfl

theorem run_tLdrReg {ro : LowReg} {rb : LowReg} {rd : LowReg} {st : State} (h : Runs (.tLdrReg ro rb rd) st) :
    exec (.tLdrReg ro rb rd) st = thumbLoadWord (st.reg (lowReg rb) + st.reg (lowReg ro)) rd (st.executed true) := by
  rw [show exec (.tLdrReg ro rb rd) st = execTLdrReg ro rb rd st from rfl, execTLdrReg, thumbGuard_runs rfl h]; rfl

theorem run_tLdrhReg {ro : LowReg} {rb : LowReg} {rd : LowReg} {st : State} (h : Runs (.tLdrhReg ro rb rd) st) :
    exec (.tLdrhReg ro rb rd) st = loadOp .half (st.reg (lowReg rb) + st.reg (lowReg ro)) false none (lowReg rd)
      (st.executed true) := by
  rw [show exec (.tLdrhReg ro rb rd) st = execTLdrhReg ro rb rd st from rfl, execTLdrhReg, thumbGuard_runs rfl h]; rfl

theorem run_tLdrbReg {ro : LowReg} {rb : LowReg} {rd : LowReg} {st : State} (h : Runs (.tLdrbReg ro rb rd) st) :
    exec (.tLdrbReg ro rb rd) st = loadOp .byte (st.reg (lowReg rb) + st.reg (lowReg ro)) false none (lowReg rd)
      (st.executed true) := by
  rw [show exec (.tLdrbReg ro rb rd) st = execTLdrbReg ro rb rd st from rfl, execTLdrbReg, thumbGuard_runs rfl h]; rfl

theorem run_tLdshReg {ro : LowReg} {rb : LowReg} {rd : LowReg} {st : State} (h : Runs (.tLdshReg ro rb rd) st) :
    exec (.tLdshReg ro rb rd) st = loadOp .shalf (st.reg (lowReg rb) + st.reg (lowReg ro)) false none (lowReg rd)
      (st.executed true) := by
  rw [show exec (.tLdshReg ro rb rd) st = execTLdshReg ro rb rd st from rfl, execTLdshReg, thumbGuard_runs rfl h]; rfl

theorem run_tStrImm {n : BitVec 5} {rb : LowReg} {rd : LowReg} {st : State} (h : Runs (.tStrImm n rb rd) st) :
    exec (.tStrImm n rb rd) st = thumbStoreWord (st.reg (lowReg rb) + ((n ++ 0#2).setWidth 32)) rd (st.executed true) := by
  rw [show exec (.tStrImm n rb rd) st = execTStrImm n rb rd st from rfl, execTStrImm, thumbGuard_runs rfl h]; rfl

theorem run_tLdrImm {n : BitVec 5} {rb : LowReg} {rd : LowReg} {st : State} (h : Runs (.tLdrImm n rb rd) st) :
    exec (.tLdrImm n rb rd) st = thumbLoadWord (st.reg (lowReg rb) + ((n ++ 0#2).setWidth 32)) rd (st.executed true) := by
  rw [show exec (.tLdrImm n rb rd) st = execTLdrImm n rb rd st from rfl, execTLdrImm, thumbGuard_runs rfl h]; rfl

theorem run_tStrbImm {n : BitVec 5} {rb : LowReg} {rd : LowReg} {st : State} (h : Runs (.tStrbImm n rb rd) st) :
    exec (.tStrbImm n rb rd) st = storeOp .byte (st.reg (lowReg rb) + n.setWidth 32) (st.reg (lowReg rd)) false none
      (st.executed true) := by
  rw [show exec (.tStrbImm n rb rd) st = execTStrbImm n rb rd st from rfl, execTStrbImm, thumbGuard_runs rfl h]; rfl

theorem run_tLdrbImm {n : BitVec 5} {rb : LowReg} {rd : LowReg} {st : State} (h : Runs (.tLdrbImm n rb rd) st) :
    exec (.tLdrbImm n rb rd) st = loadOp .byte (st.reg (lowReg rb) + n.setWidth 32) false none (lowReg rd) (st.executed
      true) := by
  rw [show exec (.tLdrbImm n rb rd) st = execTLdrbImm n rb rd st from rfl, execTLdrbImm, thumbGuard_runs rfl h]; rfl

theorem run_tStrhImm {n : BitVec 5} {rb : LowReg} {rd : LowReg} {st : State} (h : Runs (.tStrhImm n rb rd) st) :
    exec (.tStrhImm n rb rd) st = storeOp .half (st.reg (lowReg rb) + (n ++ 0#1).setWidth 32) (st.reg (lowReg rd)) false
      none (st.executed true) := by
  rw [show exec (.tStrhImm n rb rd) st = execTStrhImm n rb rd st from rfl, execTStrhImm, thumbGuard_runs rfl h]; rfl

theorem run_tLdrhImm {n : BitVec 5} {rb : LowReg} {rd : LowReg} {st : State} (h : Runs (.tLdrhImm n rb rd) st) :
    exec (.tLdrhImm n rb rd) st = loadOp .half (st.reg (lowReg rb) + (n ++ 0#1).setWidth 32) false none (lowReg rd)
      (st.executed true) := by
  rw [show exec (.tLdrhImm n rb rd) st = execTLdrhImm n rb rd st from rfl, execTLdrhImm, thumbGuard_runs rfl h]; rfl

theorem run_tStrSp {rd : LowReg} {n : BitVec 8} {st : State} (h : Runs (.tStrSp rd n) st) :
    exec (.tStrSp rd n) st = thumbStoreWord (st.reg 13#4 + ((n ++ 0#2).setWidth 32)) rd (st.executed true) := by
  rw [show exec (.tStrSp rd n) st = execTStrSp rd n st from rfl, execTStrSp, thumbGuard_runs rfl h]; rfl

theorem run_tLdrSp {rd : LowReg} {n : BitVec 8} {st : State} (h : Runs (.tLdrSp rd n) st) :
    exec (.tLdrSp rd n) st = thumbLoadWord (st.reg 13#4 + ((n ++ 0#2).setWidth 32)) rd (st.executed true) := by
  rw [show exec (.tLdrSp rd n) st = execTLdrSp rd n st from rfl, execTLdrSp, thumbGuard_runs rfl h]; rfl

theorem run_tAddPc {rd : LowReg} {n : BitVec 8} {st : State} (h : Runs (.tAddPc rd n) st) :
    exec (.tAddPc rd n) st = thumbWrite (lowReg rd) ((st.pcOperand &&& 0xFFFFFFFC#32) + ((n ++ 0#2).setWidth 32))
      (st.executed true) := by
  rw [show exec (.tAddPc rd n) st = execTAddPc rd n st from rfl, execTAddPc, thumbGuard_runs rfl h]; rfl

theorem run_tAddSp {rd : LowReg} {n : BitVec 8} {st : State} (h : Runs (.tAddSp rd n) st) :
    exec (.tAddSp rd n) st = thumbWrite (lowReg rd) (st.reg 13#4 + ((n ++ 0#2).setWidth 32)) (st.executed true) := by
  rw [show exec (.tAddSp rd n) st = execTAddSp rd n st from rfl, execTAddSp, thumbGuard_runs rfl h]; rfl

theorem run_tIncSp {n : BitVec 7} {st : State} (h : Runs (.tIncSp n) st) :
    exec (.tIncSp n) st = thumbWrite 13#4 (st.reg 13#4 + ((n ++ 0#2).setWidth 32)) (st.executed true) := by
  rw [show exec (.tIncSp n) st = execTIncSp n st from rfl, execTIncSp, thumbGuard_runs rfl h]; rfl

theorem run_tDecSp {n : BitVec 7} {st : State} (h : Runs (.tDecSp n) st) :
    exec (.tDecSp n) st = thumbWrite 13#4 (st.reg 13#4 - ((n ++ 0#2).setWidth 32)) (st.executed true) := by
  rw [show exec (.tDecSp n) st = execTDecSp n st from rfl, execTDecSp, thumbGuard_runs rfl h]; rfl

theorem run_tPush {lr : Bool} {list : BitVec 8} {st : State} (h : Runs (.tPush lr list) st) :
    exec (.tPush lr list) st = pushOp lr list (st.executed true) := by
  rw [show exec (.tPush lr list) st = execTPush lr list st from rfl, execTPush, thumbGuard_runs rfl h]

theorem run_tPop {pc : Bool} {list : BitVec 8} {st : State} (h : Runs (.tPop pc list) st) :
    exec (.tPop pc list) st = popOp pc list (st.executed true) := by
  rw [show exec (.tPop pc list) st = execTPop pc list st from rfl, execTPop, thumbGuard_runs rfl h]

theorem run_tUnd1011 {body : BitVec 12} {st : State} (h : Runs (.tUnd1011 body) st) :
    exec (.tUnd1011 body) st = undefinedOp (st.executed true) := by
  rw [show exec (.tUnd1011 body) st = execTUnd1011 body st from rfl, execTUnd1011, thumbGuard_runs rfl h]

theorem run_tStmia {rb : LowReg} {list : BitVec 8} {st : State} (h : Runs (.tStmia rb list) st) :
    exec (.tStmia rb list) st = stmiaOp rb list (st.executed true) := by
  rw [show exec (.tStmia rb list) st = execTStmia rb list st from rfl, execTStmia, thumbGuard_runs rfl h]

theorem run_tLdmia {rb : LowReg} {list : BitVec 8} {st : State} (h : Runs (.tLdmia rb list) st) :
    exec (.tLdmia rb list) st = ldmiaOp rb list (st.executed true) := by
  rw [show exec (.tLdmia rb list) st = execTLdmia rb list st from rfl, execTLdmia, thumbGuard_runs rfl h]

theorem run_tUndDE {n : BitVec 8} {st : State} (h : Runs (.tUndDE n) st) :
    exec (.tUndDE n) st = undefinedOp (st.executed true) := by
  rw [show exec (.tUndDE n) st = execTUndDE n st from rfl, execTUndDE, thumbGuard_runs rfl h]

theorem run_tSwi {n : BitVec 8} {st : State} (h : Runs (.tSwi n) st) :
    exec (.tSwi n) st = swiOp (st.executed true) := by
  rw [show exec (.tSwi n) st = execTSwi n st from rfl, execTSwi, thumbGuard_runs rfl h]

theorem run_tBCond {c : Cond} {n : BitVec 8} {st : State} (h : Runs (.tBCond c n) st) :
    exec (.tBCond c n) st = thumbCondBranchOp c n (st.executed true) := by
  rw [show exec (.tBCond c n) st = execTBCond c n st from rfl, execTBCond, thumbGuard_runs rfl h]

theorem run_tB {n : BitVec 11} {st : State} (h : Runs (.tB n) st) :
    exec (.tB n) st = thumbBranchOp n (st.executed true) := by
  rw [show exec (.tB n) st = execTB n st from rfl, execTB, thumbGuard_runs rfl h]

theorem run_tUnd11101 {n : BitVec 11} {st : State} (h : Runs (.tUnd11101 n) st) :
    exec (.tUnd11101 n) st = undefinedOp (st.executed true) := by
  rw [show exec (.tUnd11101 n) st = execTUnd11101 n st from rfl, execTUnd11101, thumbGuard_runs rfl h]

theorem run_tBl1 {n : BitVec 11} {st : State} (h : Runs (.tBl1 n) st) :
    exec (.tBl1 n) st = blFirstOp n (st.executed true) := by
  rw [show exec (.tBl1 n) st = execTBl1 n st from rfl, execTBl1, thumbGuard_runs rfl h]

theorem run_tBl2 {n : BitVec 11} {st : State} (h : Runs (.tBl2 n) st) :
    exec (.tBl2 n) st = blSecondOp n (st.executed true) := by
  rw [show exec (.tBl2 n) st = execTBl2 n st from rfl, execTBl2, thumbGuard_runs rfl h]

end Sys2Proof.Machine
end

