-- ==== Sys2Proof/Tests/Slice0.lean ====
section
/-!
SUPPORT. The model's own tests: ill-formed terms refused by name, every row's decoding from a word written out bit by bit, one
step of every instruction with the values of spec/95_test_vectors.md or a hand calculation, and for every statement a state that
meets its hypotheses.
-/

namespace Sys2Proof.Tests

open Sys2Proof Sys2Proof.Machine

set_option maxRecDepth 20000

/-! ## Helpers -/

/-- The result is a next state whose listed values are the expected ones. -/
def answers (r : Result) (f : State → List (Nat × Nat)) : Bool :=
  match r with
  | .next t => (f t).all fun x => x.1 == x.2
  | _ => false

/-- A state with this CPSR and PC, all else as after reset. -/
def base (c pc : Nat) : State := { State.reset with cpsr := BitVec.ofNat 32 c, pc := BitVec.ofNat 32 pc }

/-- A word stored in the byte order of the state. -/
def putW (s : State) (a v : Nat) : State :=
  { s with mem := Memory.writeAll s.mem (storeBytes s.pins.bigend .word (BitVec.ofNat 32 a) (BitVec.ofNat 32 v)) }

/-- Five words at 0x1000, each the low bits of its own address plus 0xA00. -/
def words (s : State) : State :=
  putW (putW (putW (putW (putW s 0x1000 0xA00) 0x1004 0xA04) 0x1008 0xA08) 0x100C 0xA0C) 0x1010 0xA10

/-- Eight bytes at 0x1000. -/
def bytes (s : State) : State := putW (putW s 0x1000 0x11223344) 0x1004 0x8566F788

/-- A register of the bank of a mode. -/
def setM (s : State) (m r v : Nat) : State := s.setBankReg (BitVec.ofNat 5 m) (BitVec.ofNat 4 r) (BitVec.ofNat 32 v)

/-- The SPSR of a mode. -/
def sps (s : State) (m v : Nat) : State := s.setSpsr (BitVec.ofNat 5 m) (BitVec.ofNat 32 v)

/-- A register of the bank of a mode. -/
def getM (s : State) (m r : Nat) : Nat := (s.bankReg (BitVec.ofNat 5 m) (BitVec.ofNat 4 r)).toNat

/-- The SPSR of a mode. -/
def gsp (s : State) (m : Nat) : Nat := ((s.spsrOf (BitVec.ofNat 5 m)).getD 0).toNat

/-- The word at an address. -/
def rdW (s : State) (a : Nat) : Nat := (busWordAt s.pins.bigend s.mem (BitVec.ofNat 32 a)).toNat

/-- The byte at an address. -/
def rdB (s : State) (a : Nat) : Nat := (Memory.read s.mem a).toNat

/-- The k-th latest data access. -/
def lastBus (s : State) (k : Nat) : BusEvent := s.bus.getD k ⟨0, .byte, false, 0, false, 0, false, false, false, false⟩

/-- The step that fetches and runs a word or a halfword at the PC. -/
def go (s : State) (w : Nat) (thumb : Bool) : Result := step (s.withFetchWord (if thumb then 16 else 32) w)

/-! ## Decoding -/

theorem test_decode_multiplies :
    decodeArm 0b11100000000101100000110110010010#32 = .mul .al true 6#4 0#4 13#4 2#4 ∧
    decodeArm 0b11100000001101101011110110010010#32 = .mla .al true 6#4 11#4 13#4 2#4 ∧
    decodeArm 0b11100000100101101011110110010100#32 = .umull .al true 6#4 11#4 13#4 4#4 ∧
    decodeArm 0b11100000101101101011110110010100#32 = .umlal .al true 6#4 11#4 13#4 4#4 ∧
    decodeArm 0b11100000110101101011110110010100#32 = .smull .al true 6#4 11#4 13#4 4#4 ∧
    decodeArm 0b11100000111101101011110110010100#32 = .smlal .al true 6#4 11#4 13#4 4#4 := by decide

theorem test_decode_swaps_and_halfwords :
    decodeArm 0b11100000010000000000001010010000#32 = .undArith .al 0x400290#28 ∧
    decodeArm 0b11100001000001101011000010010100#32 = .swp .al 6#4 11#4 0#4 4#4 ∧
    decodeArm 0b11100001010001101011000010010100#32 = .swpb .al 6#4 11#4 0#4 4#4 ∧
    decodeArm 0b11100001111000000000001110010000#32 = .undLsA .al 0x1e00390#28 ∧
    decodeArm 0b11100001011001101011110110110100#32 = .strh .al ⟨true, false, true, true, 6#4, 11#4, 13#4, 4#4⟩ ∧
    decodeArm 0b11100001011101101011110110110100#32 = .ldrh .al ⟨true, false, true, true, 6#4, 11#4, 13#4, 4#4⟩ ∧
    decodeArm 0b11100001011101101011110111010100#32 = .ldrsb .al ⟨true, false, true, true, 6#4, 11#4, 13#4, 4#4⟩ ∧
    decodeArm 0b11100001011101101011110111110100#32 = .ldrsh .al ⟨true, false, true, true, 6#4, 11#4, 13#4, 4#4⟩ ∧
    decodeArm 0b11100000000000000000000011110100#32 = .undLsB .al 0xf4#28 := by decide

theorem test_decode_status_and_exchange :
    decodeArm 0b11100001010011111011000000000000#32 = .mrs .al true 15#4 11#4 0#4 0#4 ∧
    decodeArm 0b11100001011001101111000000001101#32 = .msrReg .al true 6#4 15#4 0#4 13#4 ∧
    decodeArm 0b11100001001011111111111100010110#32 = .bx .al 4095#12 6#4 ∧
    decodeArm 0b11100001000000000000000001010000#32 = .undCtlReg .al 0x1000050#28 := by decide

theorem test_decode_shift_and :
    decodeArm 0b11100000000101101011100111001101#32 = .andShiftImm .al true 6#4 11#4 ⟨19#5, .asr, 13#4⟩ ∧
    decodeArm 0b11100000000101101011110101010100#32 = .andShiftReg .al true 6#4 11#4 ⟨13#4, .asr, 4#4⟩ ∧
    decodeArm 0b11100000001101101011100111001101#32 = .eorShiftImm .al true 6#4 11#4 ⟨19#5, .asr, 13#4⟩ ∧
    decodeArm 0b11100000001101101011110101010100#32 = .eorShiftReg .al true 6#4 11#4 ⟨13#4, .asr, 4#4⟩ ∧
    decodeArm 0b11100000010101101011100111001101#32 = .subShiftImm .al true 6#4 11#4 ⟨19#5, .asr, 13#4⟩ ∧
    decodeArm 0b11100000010101101011110101010100#32 = .subShiftReg .al true 6#4 11#4 ⟨13#4, .asr, 4#4⟩ ∧
    decodeArm 0b11100000011101101011100111001101#32 = .rsbShiftImm .al true 6#4 11#4 ⟨19#5, .asr, 13#4⟩ ∧
    decodeArm 0b11100000011101101011110101010100#32 = .rsbShiftReg .al true 6#4 11#4 ⟨13#4, .asr, 4#4⟩ := by decide

theorem test_decode_shift_add :
    decodeArm 0b11100000100101101011100111001101#32 = .addShiftImm .al true 6#4 11#4 ⟨19#5, .asr, 13#4⟩ ∧
    decodeArm 0b11100000100101101011110101010100#32 = .addShiftReg .al true 6#4 11#4 ⟨13#4, .asr, 4#4⟩ ∧
    decodeArm 0b11100000101101101011100111001101#32 = .adcShiftImm .al true 6#4 11#4 ⟨19#5, .asr, 13#4⟩ ∧
    decodeArm 0b11100000101101101011110101010100#32 = .adcShiftReg .al true 6#4 11#4 ⟨13#4, .asr, 4#4⟩ ∧
    decodeArm 0b11100000110101101011100111001101#32 = .sbcShiftImm .al true 6#4 11#4 ⟨19#5, .asr, 13#4⟩ ∧
    decodeArm 0b11100000110101101011110101010100#32 = .sbcShiftReg .al true 6#4 11#4 ⟨13#4, .asr, 4#4⟩ ∧
    decodeArm 0b11100000111101101011100111001101#32 = .rscShiftImm .al true 6#4 11#4 ⟨19#5, .asr, 13#4⟩ ∧
    decodeArm 0b11100000111101101011110101010100#32 = .rscShiftReg .al true 6#4 11#4 ⟨13#4, .asr, 4#4⟩ := by decide

theorem test_decode_shift_compare :
    decodeArm 0b11100001000101100000100111001101#32 = .tstShiftImm .al 6#4 0#4 ⟨19#5, .asr, 13#4⟩ ∧
    decodeArm 0b11100001000101100000110101010100#32 = .tstShiftReg .al 6#4 0#4 ⟨13#4, .asr, 4#4⟩ ∧
    decodeArm 0b11100001001101100000100111001101#32 = .teqShiftImm .al 6#4 0#4 ⟨19#5, .asr, 13#4⟩ ∧
    decodeArm 0b11100001001101100000110101010100#32 = .teqShiftReg .al 6#4 0#4 ⟨13#4, .asr, 4#4⟩ ∧
    decodeArm 0b11100001010101100000100111001101#32 = .cmpShiftImm .al 6#4 0#4 ⟨19#5, .asr, 13#4⟩ ∧
    decodeArm 0b11100001010101100000110101010100#32 = .cmpShiftReg .al 6#4 0#4 ⟨13#4, .asr, 4#4⟩ ∧
    decodeArm 0b11100001011101100000100111001101#32 = .cmnShiftImm .al 6#4 0#4 ⟨19#5, .asr, 13#4⟩ ∧
    decodeArm 0b11100001011101100000110101010100#32 = .cmnShiftReg .al 6#4 0#4 ⟨13#4, .asr, 4#4⟩ := by decide

theorem test_decode_shift_or :
    decodeArm 0b11100001100101101011100111001101#32 = .orrShiftImm .al true 6#4 11#4 ⟨19#5, .asr, 13#4⟩ ∧
    decodeArm 0b11100001100101101011110101010100#32 = .orrShiftReg .al true 6#4 11#4 ⟨13#4, .asr, 4#4⟩ ∧
    decodeArm 0b11100001101100001011100111001101#32 = .movShiftImm .al true 0#4 11#4 ⟨19#5, .asr, 13#4⟩ ∧
    decodeArm 0b11100001101100001011110101010100#32 = .movShiftReg .al true 0#4 11#4 ⟨13#4, .asr, 4#4⟩ ∧
    decodeArm 0b11100001110101101011100111001101#32 = .bicShiftImm .al true 6#4 11#4 ⟨19#5, .asr, 13#4⟩ ∧
    decodeArm 0b11100001110101101011110101010100#32 = .bicShiftReg .al true 6#4 11#4 ⟨13#4, .asr, 4#4⟩ ∧
    decodeArm 0b11100001111100001011100111001101#32 = .mvnShiftImm .al true 0#4 11#4 ⟨19#5, .asr, 13#4⟩ ∧
    decodeArm 0b11100001111100001011110101010100#32 = .mvnShiftReg .al true 0#4 11#4 ⟨13#4, .asr, 4#4⟩ := by decide

theorem test_decode_control :
    decodeArm 0b11100011001001101111110110100111#32 = .msrImm .al false 6#4 15#4 ⟨13#4, 167#8⟩ ∧
    decodeArm 0b11100011000000000000000000010010#32 = .undCtlImm .al 0x3000012#28 := by decide

theorem test_decode_imm_arith :
    decodeArm 0b11100010000101101011110110100111#32 = .andImm .al true 6#4 11#4 ⟨13#4, 167#8⟩ ∧
    decodeArm 0b11100010001101101011110110100111#32 = .eorImm .al true 6#4 11#4 ⟨13#4, 167#8⟩ ∧
    decodeArm 0b11100010010101101011110110100111#32 = .subImm .al true 6#4 11#4 ⟨13#4, 167#8⟩ ∧
    decodeArm 0b11100010011101101011110110100111#32 = .rsbImm .al true 6#4 11#4 ⟨13#4, 167#8⟩ ∧
    decodeArm 0b11100010100101101011110110100111#32 = .addImm .al true 6#4 11#4 ⟨13#4, 167#8⟩ ∧
    decodeArm 0b11100010101101101011110110100111#32 = .adcImm .al true 6#4 11#4 ⟨13#4, 167#8⟩ ∧
    decodeArm 0b11100010110101101011110110100111#32 = .sbcImm .al true 6#4 11#4 ⟨13#4, 167#8⟩ ∧
    decodeArm 0b11100010111101101011110110100111#32 = .rscImm .al true 6#4 11#4 ⟨13#4, 167#8⟩ := by decide

theorem test_decode_imm_compare :
    decodeArm 0b11100011000101100000110110100111#32 = .tstImm .al 6#4 0#4 ⟨13#4, 167#8⟩ ∧
    decodeArm 0b11100011001101100000110110100111#32 = .teqImm .al 6#4 0#4 ⟨13#4, 167#8⟩ ∧
    decodeArm 0b11100011010101100000110110100111#32 = .cmpImm .al 6#4 0#4 ⟨13#4, 167#8⟩ ∧
    decodeArm 0b11100011011101100000110110100111#32 = .cmnImm .al 6#4 0#4 ⟨13#4, 167#8⟩ ∧
    decodeArm 0b11100011100101101011110110100111#32 = .orrImm .al true 6#4 11#4 ⟨13#4, 167#8⟩ ∧
    decodeArm 0b11100011101100001011110110100111#32 = .movImm .al true 0#4 11#4 ⟨13#4, 167#8⟩ ∧
    decodeArm 0b11100011110101101011110110100111#32 = .bicImm .al true 6#4 11#4 ⟨13#4, 167#8⟩ ∧
    decodeArm 0b11100011111100001011110110100111#32 = .mvnImm .al true 0#4 11#4 ⟨13#4, 167#8⟩ := by decide

theorem test_decode_user_imm :
    decodeArm 0b11100100001001101011100111000101#32 = .strtImm .al false 6#4 11#4 2501#12 ∧
    decodeArm 0b11100100001101101011100111000101#32 = .ldrtImm .al false 6#4 11#4 2501#12 ∧
    decodeArm 0b11100100011001101011100111000101#32 = .strbtImm .al false 6#4 11#4 2501#12 ∧
    decodeArm 0b11100100011101101011100111000101#32 = .ldrbtImm .al false 6#4 11#4 2501#12 := by decide

theorem test_decode_single_imm :
    decodeArm 0b11100100100001101011100111000101#32 = .strImm .al ⟨.post, true, 6#4, 11#4⟩ 0x9C5#12 ∧
    decodeArm 0b11100101001101101011100111000101#32 = .ldrImm .al ⟨.pre, false, 6#4, 11#4⟩ 2501#12 ∧
    decodeArm 0b11100101011001101011100111000101#32 = .strbImm .al ⟨.pre, false, 6#4, 11#4⟩ 2501#12 ∧
    decodeArm 0b11100101011101101011100111000101#32 = .ldrbImm .al ⟨.pre, false, 6#4, 11#4⟩ 2501#12 ∧
    decodeArm 0b11100111111100000000000011110000#32 = .undSpace .al 0x7f000f0#28 := by decide

theorem test_decode_user_reg :
    decodeArm 0b11100110001001101011100111001101#32 = .strtReg .al false 6#4 11#4 ⟨19#5, .asr, 13#4⟩ ∧
    decodeArm 0b11100110001101101011100111001101#32 = .ldrtReg .al false 6#4 11#4 ⟨19#5, .asr, 13#4⟩ ∧
    decodeArm 0b11100110011001101011100111001101#32 = .strbtReg .al false 6#4 11#4 ⟨19#5, .asr, 13#4⟩ ∧
    decodeArm 0b11100110011101101011100111001101#32 = .ldrbtReg .al false 6#4 11#4 ⟨19#5, .asr, 13#4⟩ := by decide

theorem test_decode_single_reg :
    decodeArm 0b11100111001001101011100111001101#32 = .strReg .al ⟨.pre, false, 6#4, 11#4⟩ ⟨19#5, .asr, 13#4⟩ ∧
    decodeArm 0b11100111001101101011100111001101#32 = .ldrReg .al ⟨.pre, false, 6#4, 11#4⟩ ⟨19#5, .asr, 13#4⟩ ∧
    decodeArm 0b11100111011001101011100111001101#32 = .strbReg .al ⟨.pre, false, 6#4, 11#4⟩ ⟨19#5, .asr, 13#4⟩ ∧
    decodeArm 0b11100111110101101011100111001101#32 = .ldrbReg .al ⟨.offset, true, 6#4, 11#4⟩ ⟨19#5, .asr, 13#4⟩ := by decide

theorem test_decode_blocks :
    decodeArm 0b11101001001001101000110000110001#32 = .stm1 .al true false true 6#4 35889#16 ∧
    decodeArm 0b11101001001101101000110000110001#32 = .ldm1 .al true false true 6#4 35889#16 ∧
    decodeArm 0b11101001011001101000110000110001#32 = .stm2 .al true false true 6#4 35889#16 ∧
    decodeArm 0b11101001010101100100110000110001#32 = .ldm2 .al true false false 6#4 0x4C31#15 ∧
    decodeArm 0b11101001011101101000110000110001#32 = .ldm3 .al true false true 6#4 0x0C31#15 := by decide

theorem test_decode_branches :
    decodeArm 0b11101010100110101011110011011110#32 = .b .al 10140894#24 ∧
    decodeArm 0b11101011100110101011110011011110#32 = .bl .al 10140894#24 := by decide

theorem test_decode_coprocessors :
    decodeArm 0b11101100000100000000000100100011#32 = .undCop .al 0xc100123#28 ∧
    decodeArm 0b11101101001001101011110110100111#32 = .stc .al ⟨true, false, false, true, 6#4, 11#4, 13#4, 167#8⟩ ∧
    decodeArm 0b11101101001101101011110110100111#32 = .ldc .al ⟨true, false, false, true, 6#4, 11#4, 13#4, 167#8⟩ ∧
    decodeArm 0b11101110011010111101010010100011#32 = .cdp .al ⟨6#4, 11#4, 13#4, 4#4, 5#3, 3#4⟩ ∧
    decodeArm 0b11101110101001101011110101010100#32 = .mcr .al ⟨5#3, 6#4, 11#4, 13#4, 2#3, 4#4⟩ ∧
    decodeArm 0b11101110101101101011110101010100#32 = .mrc .al ⟨5#3, 6#4, 11#4, 13#4, 2#3, 4#4⟩ ∧
    decodeArm 0b11101111100110101011110011011110#32 = .swi .al 10140894#24 := by decide

theorem test_decode_thumb_shift_add :
    decodeThumb 0b0000010011101010#16 = .tLslImm 19#5 5#3 2#3 ∧
    decodeThumb 0b0000110011101010#16 = .tLsrImm 19#5 5#3 2#3 ∧
    decodeThumb 0b0001010011101010#16 = .tAsrImm 19#5 5#3 2#3 ∧
    decodeThumb 0b0001100101010110#16 = .tAddReg 5#3 2#3 6#3 ∧
    decodeThumb 0b0001101101010110#16 = .tSubReg 5#3 2#3 6#3 ∧
    decodeThumb 0b0001110101010110#16 = .tAddImm3 5#3 2#3 6#3 ∧
    decodeThumb 0b0001111101010110#16 = .tSubImm3 5#3 2#3 6#3 ∧
    decodeThumb 0b0010010110100111#16 = .tMovImm 5#3 167#8 ∧
    decodeThumb 0b0010110110100111#16 = .tCmpImm 5#3 167#8 ∧
    decodeThumb 0b0011010110100111#16 = .tAddImm 5#3 167#8 ∧
    decodeThumb 0b0011110110100111#16 = .tSubImm 5#3 167#8 := by decide

theorem test_decode_thumb_alu :
    decodeThumb 0b0100000000101010#16 = .tAnd 5#3 2#3 ∧
    decodeThumb 0b0100000001101010#16 = .tEor 5#3 2#3 ∧
    decodeThumb 0b0100000010101010#16 = .tLsl 5#3 2#3 ∧
    decodeThumb 0b0100000011101010#16 = .tLsr 5#3 2#3 ∧
    decodeThumb 0b0100000100101010#16 = .tAsr 5#3 2#3 ∧
    decodeThumb 0b0100000101101010#16 = .tAdc 5#3 2#3 ∧
    decodeThumb 0b0100000110101010#16 = .tSbc 5#3 2#3 ∧
    decodeThumb 0b0100000111101010#16 = .tRor 5#3 2#3 ∧
    decodeThumb 0b0100001000101010#16 = .tTst 5#3 2#3 ∧
    decodeThumb 0b0100001001101010#16 = .tNeg 5#3 2#3 ∧
    decodeThumb 0b0100001010101010#16 = .tCmp 5#3 2#3 ∧
    decodeThumb 0b0100001011101010#16 = .tCmn 5#3 2#3 ∧
    decodeThumb 0b0100001100101010#16 = .tOrr 5#3 2#3 ∧
    decodeThumb 0b0100001101101010#16 = .tMul 5#3 2#3 ∧
    decodeThumb 0b0100001110101010#16 = .tBic 5#3 2#3 ∧
    decodeThumb 0b0100001111101010#16 = .tMvn 5#3 2#3 := by decide

theorem test_decode_thumb_high :
    decodeThumb 0b0100010010101010#16 = .tAddHi true false 5#3 2#3 ∧
    decodeThumb 0b0100010101101010#16 = .tCmpHi false true 5#3 2#3 ∧
    decodeThumb 0b0100011011101010#16 = .tMovHi true true 5#3 2#3 ∧
    decodeThumb 0b0100011101101000#16 = .tBx false true 5#3 0#3 := by decide

theorem test_decode_thumb_literal :
    decodeThumb 0b0100110110100111#16 = .tLdrPc 5#3 167#8 := by decide

theorem test_decode_thumb_reg_offset :
    decodeThumb 0b0101000101010110#16 = .tStrReg 5#3 2#3 6#3 ∧
    decodeThumb 0b0101001101010110#16 = .tStrhReg 5#3 2#3 6#3 ∧
    decodeThumb 0b0101010101010110#16 = .tStrbReg 5#3 2#3 6#3 ∧
    decodeThumb 0b0101011101010110#16 = .tLdsbReg 5#3 2#3 6#3 ∧
    decodeThumb 0b0101100101010110#16 = .tLdrReg 5#3 2#3 6#3 ∧
    decodeThumb 0b0101101101010110#16 = .tLdrhReg 5#3 2#3 6#3 ∧
    decodeThumb 0b0101110101010110#16 = .tLdrbReg 5#3 2#3 6#3 ∧
    decodeThumb 0b0101111101010110#16 = .tLdshReg 5#3 2#3 6#3 := by decide

theorem test_decode_thumb_imm_offset :
    decodeThumb 0b0110010011101010#16 = .tStrImm 19#5 5#3 2#3 ∧
    decodeThumb 0b0110110011101010#16 = .tLdrImm 19#5 5#3 2#3 ∧
    decodeThumb 0b0111010011101010#16 = .tStrbImm 19#5 5#3 2#3 ∧
    decodeThumb 0b0111110011101010#16 = .tLdrbImm 19#5 5#3 2#3 ∧
    decodeThumb 0b1000010011101010#16 = .tStrhImm 19#5 5#3 2#3 ∧
    decodeThumb 0b1000110011101010#16 = .tLdrhImm 19#5 5#3 2#3 ∧
    decodeThumb 0b1001010110100111#16 = .tStrSp 5#3 167#8 ∧
    decodeThumb 0b1001110110100111#16 = .tLdrSp 5#3 167#8 := by decide

theorem test_decode_thumb_address :
    decodeThumb 0b1010010110100111#16 = .tAddPc 5#3 167#8 ∧
    decodeThumb 0b1010110110100111#16 = .tAddSp 5#3 167#8 ∧
    decodeThumb 0b1011000001010101#16 = .tIncSp 85#7 ∧
    decodeThumb 0b1011000011010101#16 = .tDecSp 85#7 := by decide

theorem test_decode_thumb_stack :
    decodeThumb 0b1011010110100111#16 = .tPush true 0xA7#8 ∧
    decodeThumb 0b1011110010100111#16 = .tPop false 167#8 ∧
    decodeThumb 0b1011000110100111#16 = .tUnd1011 0x1A7#12 ∧
    decodeThumb 0b1100010110100111#16 = .tStmia 5#3 167#8 ∧
    decodeThumb 0b1100110110100111#16 = .tLdmia 5#3 167#8 := by decide

theorem test_decode_thumb_branches :
    decodeThumb 0b1101111001011010#16 = .tUndDE 0x5A#8 ∧
    decodeThumb 0b1101111110100111#16 = .tSwi 167#8 ∧
    decodeThumb 0b1101000110100111#16 = .tBCond .ne 0xA7#8 ∧
    decodeThumb 0b1110010110100011#16 = .tB 1443#11 ∧
    decodeThumb 0b1110110110100011#16 = .tUnd11101 0x5A3#11 ∧
    decodeThumb 0b1111010110100011#16 = .tBl1 1443#11 ∧
    decodeThumb 0b1111110110100011#16 = .tBl2 1443#11 := by decide

/-! ## Well-formedness -/

/-- Is the term refused by well-formedness with this defect (none: by the row it does not belong to)? -/
def illFormed (i : Instr) (d : Option Defect) : Bool := !Instr.wf i && Machine.Instr.defect i == d

theorem test_wf_condNever : illFormed (.b .nv 0#24) (some .condNever) = true := by decide
theorem test_wf_sbz_mul : illFormed (.mul .al false 1#4 1#4 2#4 3#4) (some .sbz) = true := by decide
theorem test_wf_sbz_swp : illFormed (.swp .al 1#4 2#4 1#4 3#4) (some .sbz) = true := by decide
theorem test_wf_sbz_mode3 : illFormed (.ldrh .al ⟨true, true, false, false, 1#4, 2#4, 1#4, 3#4⟩) (some .sbz) = true := by decide
theorem test_wf_sbz_mrs : illFormed (.mrs .al false 15#4 1#4 0#4 1#4) (some .sbz) = true := by decide
theorem test_wf_sbz_msr : illFormed (.msrReg .al false 8#4 15#4 1#4 2#4) (some .sbz) = true := by decide
theorem test_wf_sbz_compare : illFormed (.cmpImm .al 1#4 1#4 ⟨0#4, 1#8⟩) (some .sbz) = true := by decide
theorem test_wf_sbz_mov : illFormed (.movShiftReg .al false 1#4 2#4 ⟨3#4, .lsl, 4#4⟩) (some .sbz) = true := by decide
theorem test_wf_sbz_thumb_bx : illFormed (.tBx true false 1#3 0#3) (some .sbz) = true := by decide
theorem test_wf_sbo_mrs : illFormed (.mrs .al false 14#4 1#4 0#4 0#4) (some .sbo) = true := by decide
theorem test_wf_sbo_msr : illFormed (.msrImm .al false 8#4 14#4 ⟨0#4, 1#8⟩) (some .sbo) = true := by decide
theorem test_wf_sbo_bx : illFormed (.bx .al 0xFFE#12 1#4) (some .sbo) = true := by decide
theorem test_wf_pc_shift : illFormed (.addShiftReg .al false 15#4 1#4 ⟨2#4, .lsl, 3#4⟩) (some .pcOperand) = true := by decide
theorem test_wf_pc_mul : illFormed (.mla .al false 15#4 1#4 2#4 3#4) (some .pcOperand) = true := by decide
theorem test_wf_pc_long : illFormed (.umull .al false 1#4 15#4 2#4 3#4) (some .pcOperand) = true := by decide
theorem test_wf_pc_swp : illFormed (.swpb .al 1#4 15#4 0#4 3#4) (some .pcOperand) = true := by decide
theorem test_wf_pc_mode3 : illFormed (.strh .al ⟨true, true, true, false, 1#4, 15#4, 0#4, 2#4⟩) (some .pcOperand) = true := by decide
theorem test_wf_pc_mrs : illFormed (.mrs .al false 15#4 15#4 0#4 0#4) (some .pcOperand) = true := by decide
theorem test_wf_pc_msr : illFormed (.msrReg .al false 8#4 15#4 0#4 15#4) (some .pcOperand) = true := by decide
theorem test_wf_pc_byte : illFormed (.ldrbImm .al ⟨.offset, true, 1#4, 15#4⟩ 0#12) (some .pcOperand) = true := by decide
theorem test_wf_pc_user : illFormed (.ldrtImm .al true 1#4 15#4 0#12) (some .pcOperand) = true := by decide
theorem test_wf_pc_index : illFormed (.strReg .al ⟨.offset, true, 1#4, 2#4⟩ ⟨0#5, .lsl, 15#4⟩) (some .pcOperand) = true := by decide
theorem test_wf_pc_block : illFormed (.stm1 .al true true false 15#4 1#16) (some .pcOperand) = true := by decide
theorem test_wf_pc_mcr : illFormed (.mcr .al ⟨0#3, 0#4, 15#4, 4#4, 0#3, 0#4⟩) (some .pcOperand) = true := by decide
theorem test_wf_pc_thumb_add : illFormed (.tAddHi true true 7#3 7#3) (some .pcOperand) = true := by decide
theorem test_wf_pc_thumb_cmp : illFormed (.tCmpHi true false 1#3 7#3) (some .pcOperand) = true := by decide
theorem test_wf_overlap_mul : illFormed (.mul .al false 1#4 0#4 2#4 1#4) (some .regOverlap) = true := by decide
theorem test_wf_overlap_long : illFormed (.smlal .al false 1#4 1#4 2#4 3#4) (some .regOverlap) = true := by decide
theorem test_wf_overlap_swp : illFormed (.swp .al 1#4 1#4 0#4 2#4) (some .regOverlap) = true := by decide
theorem test_wf_overlap_thumb_mul : illFormed (.tMul 1#3 1#3) (some .regOverlap) = true := by decide
theorem test_wf_empty_block : illFormed (.ldm1 .al true true false 1#4 0#16) (some .emptyList) = true := by decide
theorem test_wf_empty_thumb : illFormed (.tPush false 0#8) (some .emptyList) = true := by decide
theorem test_wf_base_in_load : illFormed (.ldm1 .al true true true 1#4 2#16) (some .baseInList) = true := by decide
theorem test_wf_base_in_store : illFormed (.stm1 .al true true true 1#4 3#16) (some .baseInList) = true := by decide
theorem test_wf_base_in_return : illFormed (.ldm3 .al true true true 1#4 2#15) (some .baseInList) = true := by decide
theorem test_wf_writeback_pc : illFormed (.strImm .al ⟨.pre, true, 15#4, 1#4⟩ 0#12) (some .writebackPc) = true := by decide
theorem test_wf_writeback_pc_cop :
    illFormed (.ldc .al ⟨true, true, false, true, 15#4, 0#4, 4#4, 0#8⟩) (some .writebackPc) = true := by decide
theorem test_wf_writeback_dest : illFormed (.ldrImm .al ⟨.post, true, 1#4, 1#4⟩ 0#12) (some .writebackDest) = true := by decide
theorem test_wf_writeback_index :
    illFormed (.ldrReg .al ⟨.pre, true, 1#4, 2#4⟩ ⟨0#5, .lsl, 1#4⟩) (some .writebackIndex) = true := by decide
theorem test_wf_post_writeback :
    illFormed (.ldrh .al ⟨false, true, true, true, 1#4, 2#4, 0#4, 0#4⟩) (some .postWriteback) = true := by decide
theorem test_wf_user_list : illFormed (.ldm2 .al true true true 1#4 1#15) (some .userListWriteback) = true := by decide
theorem test_wf_both_low : illFormed (.tMovHi false false 1#3 2#3) (some .bothLow) = true := by decide
theorem test_row_arith : illFormed (.undArith .al 0x0000090#28) none = true := by decide
theorem test_row_lsA : illFormed (.undLsA .al 0x1000090#28) none = true := by decide
theorem test_row_lsB : illFormed (.undLsB .al 0x00000B0#28) none = true := by decide
theorem test_row_ctlReg : illFormed (.undCtlReg .al 0x1200010#28) none = true := by decide
theorem test_row_ctlImm : illFormed (.undCtlImm .al 0x3200000#28) none = true := by decide
theorem test_row_space : illFormed (.undSpace .al 0x6000000#28) none = true := by decide
theorem test_row_cop : illFormed (.undCop .al 0xC200000#28) none = true := by decide
theorem test_row_stc : illFormed (.stc .al ⟨false, false, false, false, 1#4, 0#4, 4#4, 0#8⟩) none = true := by decide
theorem test_row_ldc : illFormed (.ldc .al ⟨false, false, true, false, 1#4, 0#4, 4#4, 0#8⟩) none = true := by decide
theorem test_row_thumb_1011 : illFormed (.tUnd1011 0x4FF#12) none = true := by decide
theorem test_row_thumb_cond : illFormed (.tBCond .al 0#8) none = true := by decide

/-! ## One step of every instruction -/

/-- 95_test_vectors.md B1. -/
theorem test_mul : answers (go (setM (setM (base 16 0x8000) 16 1 0xFFFFFFFF) 16 2 0x00000002) 0xE0000291 false) (fun t =>
    [(getM t 16 0, 0xFFFFFFFE), (t.pc.toNat, 0x8004)]) = true := by decide

/-- 95_test_vectors.md B4. -/
theorem test_mla : answers (go (setM (setM (setM (base 16 0x8000) 16 1 0x12345678) 16 2 0x00000100) 16 3 0x000000FF)
    0xE0203291 false) (fun t => [(getM t 16 0, 0x345678FF), (t.pc.toNat, 0x8004)]) = true := by decide

/-- 95_test_vectors.md B5. -/
theorem test_umull : answers (go (setM (setM (base 16 0x8000) 16 2 0xFFFFFFFF) 16 3 0xFFFFFFFF) 0xE0810392 false) (fun t =>
    [(getM t 16 0, 0x00000001), (getM t 16 1, 0xFFFFFFFE), (t.pc.toNat, 0x8004)]) = true := by decide

/-- 95_test_vectors.md B9. -/
theorem test_umlal : answers (go (setM (setM (setM (setM (base 16 0x8000) 16 0 0xFFFFFFFF) 16 1 0x00000000) 16 2 0x00000001)
    16 3 0x00000001) 0xE0A10392 false) (fun t => [(getM t 16 0, 0x00000000), (getM t 16 1, 0x00000001), (t.pc.toNat,
    0x8004)]) = true := by decide

/-- 95_test_vectors.md B6. -/
theorem test_smull : answers (go (setM (setM (base 16 0x8000) 16 2 0xFFFFFFFF) 16 3 0xFFFFFFFF) 0xE0C10392 false) (fun t =>
    [(getM t 16 0, 0x00000001), (getM t 16 1, 0x00000000), (t.pc.toNat, 0x8004)]) = true := by decide

/-- 95_test_vectors.md B10. -/
theorem test_smlal : answers (go (setM (setM (setM (setM (base 16 0x8000) 16 0 0x00000001) 16 1 0x00000000) 16 2 0xFFFFFFFF)
    16 3 0x00000002) 0xE0E10392 false) (fun t => [(getM t 16 0, 0xFFFFFFFF), (getM t 16 1, 0xFFFFFFFF), (t.pc.toNat,
    0x8004)]) = true := by decide

/-- Hand-calculated. -/
theorem test_undArith : answers (go (base 0x10 0x8000) 0xE0400290 false) (fun t => [(getM t 0x1B 14, 0x8004), (gsp t 0x1B,
    0x10), (t.cpsr.toNat, 0x9B), (t.pc.toNat, 4)]) = true := by decide

/-- 95_test_vectors.md E15. -/
theorem test_swp : answers (go (setM (setM (bytes (base 16 0x8000)) 16 1 0xDEADBEEF) 16 2 0x00001000) 0xE1020091 false) (fun
    t => [(getM t 16 0, 0x11223344), (t.pc.toNat, 0x8004), (rdB t 0x1000, 0xEF), (rdB t 0x1001, 0xBE), (rdB t 0x1002, 0xAD),
    (rdB t 0x1003, 0xDE), ((lastBus t 0).addr.toNat, 0x1000), ((lastBus t 0).write.toNat, 1), ((lastBus t 1).addr.toNat,
    0x1000), ((lastBus t 1).write.toNat, 0), (t.bus.length, 2)]) = true := by decide

/-- 95_test_vectors.md E17. -/
theorem test_swpb : answers (go (setM (setM (bytes (base 16 0x8000)) 16 1 0xDEADBEEF) 16 2 0x00001001) 0xE1420091 false)
    (fun t => [(getM t 16 0, 0x00000033), (t.pc.toNat, 0x8004), (rdB t 0x1000, 0x44), (rdB t 0x1001, 0xEF), (rdB t 0x1002,
    0x22), (rdB t 0x1003, 0x11), ((lastBus t 0).addr.toNat, 0x1001), ((lastBus t 0).write.toNat, 1), ((lastBus t
    1).addr.toNat, 0x1001), ((lastBus t 1).write.toNat, 0), (t.bus.length, 2)]) = true := by decide

/-- Hand-calculated. -/
theorem test_undLsA : answers (go (base 0x10 0x8000) 0xE1E00390 false) (fun t => [(getM t 0x1B 14, 0x8004), (gsp t 0x1B,
    0x10), (t.cpsr.toNat, 0x9B), (t.pc.toNat, 4)]) = true := by decide

/-- 95_test_vectors.md D22. -/
theorem test_strh : answers (go (setM (setM (bytes (base 16 0x8000)) 16 0 0xAABBCCDD) 16 1 0x00002000) 0xE1C100B2 false)
    (fun t => [(t.pc.toNat, 0x8004), (rdB t 0x2000, 0x00), (rdB t 0x2001, 0x00), (rdB t 0x2002, 0xDD), (rdB t 0x2003, 0xCC),
    ((lastBus t 0).addr.toNat, 0x2002), ((lastBus t 0).write.toNat, 1), (t.bus.length, 1)]) = true := by decide

/-- 95_test_vectors.md D12. -/
theorem test_ldrh : answers (go (setM (bytes (base 16 0x8000)) 16 1 0x00001000) 0xE1D100B6 false) (fun t => [(getM t 16 0,
    0x00008566), (t.pc.toNat, 0x8004), ((lastBus t 0).addr.toNat, 0x1006), ((lastBus t 0).write.toNat, 0), (t.bus.length,
    1)]) = true := by decide

/-- 95_test_vectors.md D14. -/
theorem test_ldrsb : answers (go (setM (bytes (base 16 0x8000)) 16 1 0x00001000) 0xE1D100D4 false) (fun t => [(getM t 16 0,
    0xFFFFFF88), (t.pc.toNat, 0x8004), ((lastBus t 0).addr.toNat, 0x1004), ((lastBus t 0).write.toNat, 0), (t.bus.length,
    1)]) = true := by decide

/-- 95_test_vectors.md D13. -/
theorem test_ldrsh : answers (go (setM (bytes (base 16 0x8000)) 16 1 0x00001000) 0xE1D100F6 false) (fun t => [(getM t 16 0,
    0xFFFF8566), (t.pc.toNat, 0x8004), ((lastBus t 0).addr.toNat, 0x1006), ((lastBus t 0).write.toNat, 0), (t.bus.length,
    1)]) = true := by decide

/-- Hand-calculated. -/
theorem test_undLsB : answers (go (base 0x10 0x8000) 0xE00000F4 false) (fun t => [(getM t 0x1B 14, 0x8004), (gsp t 0x1B,
    0x10), (t.cpsr.toNat, 0x9B), (t.pc.toNat, 4)]) = true := by decide

/-- 95_test_vectors.md C1. -/
theorem test_mrs : answers (go (base 0xa00000d3 0x8000) 0xE10F0000 false) (fun t => [(getM t 19 0, 0xA00000D3), (t.pc.toNat,
    0x8004)]) = true := by decide

/-- 95_test_vectors.md C4. -/
theorem test_msrReg : answers (go (setM (base 16 0x8000) 16 0 0xF00000D3) 0xE129F000 false) (fun t => [(t.cpsr.toNat,
    0xF0000010), (t.pc.toNat, 0x8004)]) = true := by decide

/-- 95_test_vectors.md F8. -/
theorem test_bx : answers (go (setM (base 16 0x8000) 16 0 0x00009001) 0xE12FFF10 false) (fun t => [(t.pc.toNat, 0x00009000),
    ((t.cpsr.getLsbD 5).toNat, 1)]) = true := by decide

/-- Hand-calculated. -/
theorem test_undCtlReg : answers (go (base 0x10 0x8000) 0xE1000050 false) (fun t => [(getM t 0x1B 14, 0x8004), (gsp t 0x1B,
    0x10), (t.cpsr.toNat, 0x9B), (t.pc.toNat, 4)]) = true := by decide

/-- 95_test_vectors.md A11. -/
theorem test_andShiftImm : answers (go (setM (setM (base 0x30000010 0x8000) 16 1 0xF0F0F0F0) 16 2 0x0F0F0F0F) 0xE0110002
    false) (fun t => [(getM t 16 0, 0x00000000), (t.pc.toNat, 0x8004), (t.cpsr.toNat / 2^28, 7)]) = true := by decide

/-- Hand-calculated. -/
theorem test_andShiftReg : answers (go (setM (setM (setM (base 0x10 0x8000) 0x10 1 0xFF) 0x10 2 0x1F) 0x10 3 4) 0xE0010312
    false) (fun t => [(getM t 0x10 0, 0xF0)]) = true := by decide

/-- 95_test_vectors.md A12. -/
theorem test_eorShiftImm : answers (go (setM (setM (base 16 0x8000) 16 1 0xFFFFFFFF) 16 2 0x7FFFFFFF) 0xE0310002 false) (fun
    t => [(getM t 16 0, 0x80000000), (t.pc.toNat, 0x8004), (t.cpsr.toNat / 2^28, 8)]) = true := by decide

/-- Hand-calculated. -/
theorem test_eorShiftReg : answers (go (setM (setM (setM (base 0x10 0x8000) 0x10 1 0xFF) 0x10 2 1) 0x10 3 8) 0xE0210312
    false) (fun t => [(getM t 0x10 0, 0x1FF)]) = true := by decide

/-- 95_test_vectors.md A3. -/
theorem test_subShiftImm : answers (go (setM (setM (base 16 0x8000) 16 1 0x00000000) 16 2 0x00000001) 0xE0510002 false) (fun
    t => [(getM t 16 0, 0xFFFFFFFF), (t.pc.toNat, 0x8004), (t.cpsr.toNat / 2^28, 8)]) = true := by decide

/-- Hand-calculated. -/
theorem test_subShiftReg : answers (go (setM (setM (setM (base 0x10 0x8000) 0x10 1 10) 0x10 2 0x40) 0x10 3 4) 0xE0410332
    false) (fun t => [(getM t 0x10 0, 6)]) = true := by decide

/-- Hand-calculated. -/
theorem test_rsbShiftImm : answers (go (setM (setM (base 0x10 0x8000) 0x10 1 3) 0x10 2 5) 0xE0610082 false) (fun t => [(getM
    t 0x10 0, 7)]) = true := by decide

/-- Hand-calculated. -/
theorem test_rsbShiftReg : answers (go (setM (setM (setM (base 0x10 0x8000) 0x10 1 3) 0x10 2 5) 0x10 3 1) 0xE0610312 false)
    (fun t => [(getM t 0x10 0, 7)]) = true := by decide

/-- 95_test_vectors.md A1. -/
theorem test_addShiftImm : answers (go (setM (setM (base 16 0x8000) 16 1 0x7FFFFFFF) 16 2 0x00000001) 0xE0910002 false) (fun
    t => [(getM t 16 0, 0x80000000), (t.pc.toNat, 0x8004), (t.cpsr.toNat / 2^28, 9)]) = true := by decide

/-- Hand-calculated. -/
theorem test_addShiftReg : answers (go (setM (setM (setM (base 0x10 0x8000) 0x10 1 3) 0x10 2 5) 0x10 3 1) 0xE0810312 false)
    (fun t => [(getM t 0x10 0, 13)]) = true := by decide

/-- 95_test_vectors.md A7. -/
theorem test_adcShiftImm : answers (go (setM (setM (base 0x20000010 0x8000) 16 1 0xFFFFFFFF) 16 2 0x00000000) 0xE0B10002
    false) (fun t => [(getM t 16 0, 0x00000000), (t.pc.toNat, 0x8004), (t.cpsr.toNat / 2^28, 6)]) = true := by decide

/-- Hand-calculated. -/
theorem test_adcShiftReg : answers (go (setM (setM (setM (base 0x20000010 0x8000) 0x10 1 3) 0x10 2 5) 0x10 3 1) 0xE0A10312
    false) (fun t => [(getM t 0x10 0, 14)]) = true := by decide

/-- 95_test_vectors.md A8. -/
theorem test_sbcShiftImm : answers (go (setM (setM (base 16 0x8000) 16 1 0x00000005) 16 2 0x00000005) 0xE0D10002 false) (fun
    t => [(getM t 16 0, 0xFFFFFFFF), (t.pc.toNat, 0x8004), (t.cpsr.toNat / 2^28, 8)]) = true := by decide

/-- Hand-calculated. -/
theorem test_sbcShiftReg : answers (go (setM (setM (setM (base 0x10 0x8000) 0x10 1 20) 0x10 2 5) 0x10 3 1) 0xE0C10312 false)
    (fun t => [(getM t 0x10 0, 9)]) = true := by decide

/-- 95_test_vectors.md A10. -/
theorem test_rscShiftImm : answers (go (setM (setM (base 0x20000010 0x8000) 16 1 0x00000001) 16 2 0x00000003) 0xE0F10002
    false) (fun t => [(getM t 16 0, 0x00000002), (t.pc.toNat, 0x8004), (t.cpsr.toNat / 2^28, 2)]) = true := by decide

/-- Hand-calculated. -/
theorem test_rscShiftReg : answers (go (setM (setM (setM (base 0x10 0x8000) 0x10 1 3) 0x10 2 5) 0x10 3 1) 0xE0E10312 false)
    (fun t => [(getM t 0x10 0, 6)]) = true := by decide

/-- Hand-calculated. -/
theorem test_tstShiftImm : answers (go (setM (setM (base 0x20000010 0x8000) 0x10 1 0xF0) 0x10 2 0x0F) 0xE1110002 false) (fun
    t => [(t.cpsr.toNat, 0x60000010)]) = true := by decide

/-- Hand-calculated. -/
theorem test_tstShiftReg : answers (go (setM (setM (setM (base 0x10 0x8000) 0x10 1 0x80000000) 0x10 2 0x40000000) 0x10 3 1)
    0xE1110312 false) (fun t => [(t.cpsr.toNat, 0x80000010)]) = true := by decide

/-- 95_test_vectors.md A17. -/
theorem test_teqShiftImm : answers (go (setM (setM (base 0x30000010 0x8000) 16 1 0x00001234) 16 2 0x00001234) 0xE1310002
    false) (fun t => [(t.pc.toNat, 0x8004), (t.cpsr.toNat / 2^28, 7)]) = true := by decide

/-- Hand-calculated. -/
theorem test_teqShiftReg : answers (go (setM (setM (setM (base 0x10 0x8000) 0x10 1 0x80000000) 0x10 2 0x40000000) 0x10 3 1)
    0xE1310312 false) (fun t => [(t.cpsr.toNat, 0x40000010)]) = true := by decide

/-- 95_test_vectors.md A5. -/
theorem test_cmpShiftImm : answers (go (setM (setM (base 16 0x8000) 16 1 0x00000005) 16 2 0x00000005) 0xE1510002 false) (fun
    t => [(t.pc.toNat, 0x8004), (t.cpsr.toNat / 2^28, 6)]) = true := by decide

/-- Hand-calculated. -/
theorem test_cmpShiftReg : answers (go (setM (setM (setM (base 0x10 0x8000) 0x10 1 10) 0x10 2 5) 0x10 3 1) 0xE1510312 false)
    (fun t => [(t.cpsr.toNat, 0x60000010)]) = true := by decide

/-- 95_test_vectors.md A6. -/
theorem test_cmnShiftImm : answers (go (setM (setM (base 16 0x8000) 16 1 0xFFFFFFFF) 16 2 0x00000001) 0xE1710002 false) (fun
    t => [(t.pc.toNat, 0x8004), (t.cpsr.toNat / 2^28, 6)]) = true := by decide

/-- Hand-calculated. -/
theorem test_cmnShiftReg : answers (go (setM (setM (setM (base 0x10 0x8000) 0x10 1 0xFFFFFFF6) 0x10 2 5) 0x10 3 1)
    0xE1710312 false) (fun t => [(t.cpsr.toNat, 0x60000010)]) = true := by decide

/-- Hand-calculated. -/
theorem test_orrShiftImm : answers (go (setM (setM (base 0x10 0x8000) 0x10 1 1) 0x10 2 2) 0xE1810202 false) (fun t => [(getM
    t 0x10 0, 0x21)]) = true := by decide

/-- Hand-calculated. -/
theorem test_orrShiftReg : answers (go (setM (setM (setM (base 0x10 0x8000) 0x10 1 1) 0x10 2 2) 0x10 3 4) 0xE1810312 false)
    (fun t => [(getM t 0x10 0, 0x21)]) = true := by decide

/-- 95_test_vectors.md A20. -/
theorem test_movShiftImm : answers (go (setM (base 0x20000010 0x8000) 16 1 0x80000000) 0xE1B00001 false) (fun t => [(getM t
    16 0, 0x80000000), (t.pc.toNat, 0x8004), (t.cpsr.toNat / 2^28, 10)]) = true := by decide

/-- 95_test_vectors.md A27. -/
theorem test_movShiftReg : answers (go (setM (setM (base 0x20000010 0x8000) 16 1 0xFFFFFFFF) 16 2 0x00000000) 0xE1B00211
    false) (fun t => [(getM t 16 0, 0xFFFFFFFF), (t.pc.toNat, 0x8004), (t.cpsr.toNat / 2^28, 10)]) = true := by decide

/-- Hand-calculated. -/
theorem test_bicShiftImm : answers (go (setM (setM (base 0x10 0x8000) 0x10 1 0xFF) 0x10 2 3) 0xE1C10202 false) (fun t =>
    [(getM t 0x10 0, 0xCF)]) = true := by decide

/-- Hand-calculated. -/
theorem test_bicShiftReg : answers (go (setM (setM (setM (base 0x10 0x8000) 0x10 1 0xFF) 0x10 2 3) 0x10 3 4) 0xE1C10312
    false) (fun t => [(getM t 0x10 0, 0xCF)]) = true := by decide

/-- Hand-calculated. -/
theorem test_mvnShiftImm : answers (go (setM (base 0x10 0x8000) 0x10 2 0xF) 0xE1E00202 false) (fun t => [(getM t 0x10 0,
    0xFFFFFF0F)]) = true := by decide

/-- Hand-calculated. -/
theorem test_mvnShiftReg : answers (go (setM (setM (base 0x10 0x8000) 0x10 2 0xF) 0x10 3 4) 0xE1E00312 false) (fun t =>
    [(getM t 0x10 0, 0xFFFFFF0F)]) = true := by decide

/-- 95_test_vectors.md C3. -/
theorem test_msrImm : answers (go (base 16 0x8000) 0xE328F20F false) (fun t => [(t.cpsr.toNat, 0xF0000010), (t.pc.toNat,
    0x8004)]) = true := by decide

/-- Hand-calculated. -/
theorem test_undCtlImm : answers (go (base 0x10 0x8000) 0xE3000012 false) (fun t => [(getM t 0x1B 14, 0x8004), (gsp t 0x1B,
    0x10), (t.cpsr.toNat, 0x9B), (t.pc.toNat, 4)]) = true := by decide

/-- Hand-calculated. -/
theorem test_andImm : answers (go (setM (base 0x10 0x8000) 0x10 1 0x1234) 0xE20100F0 false) (fun t => [(getM t 0x10 0,
    0x30)]) = true := by decide

/-- Hand-calculated. -/
theorem test_eorImm : answers (go (setM (base 0x10 0x8000) 0x10 1 0x1234) 0xE22100FF false) (fun t => [(getM t 0x10 0,
    0x12CB)]) = true := by decide

/-- 95_test_vectors.md A35. -/
theorem test_subImm : answers (go (base 16 0x8000) 0xE24FF01C false) (fun t => [(t.pc.toNat, 0x00007FEC)]) = true := by
    decide

/-- 95_test_vectors.md A9. -/
theorem test_rsbImm : answers (go (setM (base 16 0x8000) 16 1 0x00000001) 0xE2710000 false) (fun t => [(getM t 16 0,
    0xFFFFFFFF), (t.pc.toNat, 0x8004), (t.cpsr.toNat / 2^28, 8)]) = true := by decide

/-- 95_test_vectors.md A34. -/
theorem test_addImm : answers (go (base 16 0x8000) 0xE28F0004 false) (fun t => [(getM t 16 0, 0x0000800C), (t.pc.toNat,
    0x8004)]) = true := by decide

/-- Hand-calculated. -/
theorem test_adcImm : answers (go (setM (base 0x20000010 0x8000) 0x10 1 5) 0xE2A10001 false) (fun t => [(getM t 0x10 0, 7)])
    = true := by decide

/-- Hand-calculated. -/
theorem test_sbcImm : answers (go (setM (base 0x10 0x8000) 0x10 1 5) 0xE2C10001 false) (fun t => [(getM t 0x10 0, 3)]) =
    true := by decide

/-- Hand-calculated. -/
theorem test_rscImm : answers (go (setM (base 0x20000010 0x8000) 0x10 1 5) 0xE2E10009 false) (fun t => [(getM t 0x10 0, 4)])
    = true := by decide

/-- 95_test_vectors.md A16. -/
theorem test_tstImm : answers (go (setM (base 16 0x8000) 16 1 0x80000001) 0xE3110102 false) (fun t => [(t.pc.toNat, 0x8004),
    (t.cpsr.toNat / 2^28, 10)]) = true := by decide

/-- Hand-calculated. -/
theorem test_teqImm : answers (go (setM (base 0x10 0x8000) 0x10 1 5) 0xE3310005 false) (fun t => [(t.cpsr.toNat,
    0x40000010)]) = true := by decide

/-- Hand-calculated. -/
theorem test_cmpImm : answers (go (setM (base 0x10 0x8000) 0x10 1 5) 0xE3510006 false) (fun t => [(t.cpsr.toNat,
    0x80000010)]) = true := by decide

/-- Hand-calculated. -/
theorem test_cmnImm : answers (go (setM (base 0x10 0x8000) 0x10 1 0x7FFFFFFF) 0xE3710001 false) (fun t => [(t.cpsr.toNat,
    0x90000010)]) = true := by decide

/-- 95_test_vectors.md A13. -/
theorem test_orrImm : answers (go (setM (base 0xa0000010 0x8000) 16 1 0x000000D3) 0xE3810010 false) (fun t => [(getM t 16 0,
    0x000000D3), (t.pc.toNat, 0x8004), (t.cpsr.toNat / 2^28, 10)]) = true := by decide

/-- 95_test_vectors.md A18. -/
theorem test_movImm : answers (go (base 16 0x8000) 0xE3B004FF false) (fun t => [(getM t 16 0, 0xFF000000), (t.pc.toNat,
    0x8004), (t.cpsr.toNat / 2^28, 10)]) = true := by decide

/-- 95_test_vectors.md A14. -/
theorem test_bicImm : answers (go (setM (base 16 0x8000) 16 1 0x000000D3) 0xE3C1001F false) (fun t => [(getM t 16 0,
    0x000000C0), (t.pc.toNat, 0x8004), (t.cpsr.toNat / 2^28, 0)]) = true := by decide

/-- 95_test_vectors.md A15. -/
theorem test_mvnImm : answers (go (base 16 0x8000) 0xE3F00000 false) (fun t => [(getM t 16 0, 0xFFFFFFFF), (t.pc.toNat,
    0x8004), (t.cpsr.toNat / 2^28, 8)]) = true := by decide

/-- Hand-calculated. -/
theorem test_strtImm : answers (go (setM (setM (words (base 0x10 0x8000)) 0x10 0 0x12345678) 0x10 1 0x1000) 0xE4A10004
    false) (fun t => [(rdW t 0x1000, 0x12345678), (getM t 0x10 1, 0x1004)]) = true := by decide

/-- 95_test_vectors.md D28. -/
theorem test_ldrtImm : answers (go (setM (bytes (base 211 0x8000)) 19 1 0x00001000) 0xE4B10004 false) (fun t => [(getM t 19
    0, 0x11223344), (getM t 19 1, 0x00001004), (t.pc.toNat, 0x8004)]) = true := by decide

/-- Hand-calculated. -/
theorem test_strbtImm : answers (go (setM (setM (words (base 0x10 0x8000)) 0x10 0 0x12345678) 0x10 1 0x1000) 0xE4E10004
    false) (fun t => [(rdW t 0x1000, 0xA78), (getM t 0x10 1, 0x1004)]) = true := by decide

/-- Hand-calculated. -/
theorem test_ldrbtImm : answers (go (setM (words (base 0x10 0x8000)) 0x10 1 0x1001) 0xE4F10004 false) (fun t => [(getM t
    0x10 0, 0x0A), (getM t 0x10 1, 0x1005)]) = true := by decide

/-- 95_test_vectors.md D18. -/
theorem test_strImm : answers (go (setM (setM (bytes (base 16 0x8000)) 16 0 0xAABBCCDD) 16 1 0x00002000) 0xE5810000 false)
    (fun t => [(t.pc.toNat, 0x8004), (rdB t 0x2000, 0xDD), (rdB t 0x2001, 0xCC), (rdB t 0x2002, 0xBB), (rdB t 0x2003, 0xAA),
    ((lastBus t 0).addr.toNat, 0x2000), ((lastBus t 0).write.toNat, 1), (t.bus.length, 1)]) = true := by decide

/-- 95_test_vectors.md D1. -/
theorem test_ldrImm : answers (go (setM (bytes (base 16 0x8000)) 16 1 0x00001000) 0xE5910000 false) (fun t => [(getM t 16 0,
    0x11223344), (t.pc.toNat, 0x8004), ((lastBus t 0).addr.toNat, 0x1000), ((lastBus t 0).write.toNat, 0), (t.bus.length,
    1)]) = true := by decide

/-- 95_test_vectors.md D21. -/
theorem test_strbImm : answers (go (setM (setM (bytes (base 16 0x8000)) 16 0 0xAABBCCDD) 16 1 0x00002000) 0xE5C10003 false)
    (fun t => [(t.pc.toNat, 0x8004), (rdB t 0x2000, 0x00), (rdB t 0x2001, 0x00), (rdB t 0x2002, 0x00), (rdB t 0x2003, 0xDD),
    ((lastBus t 0).addr.toNat, 0x2003), ((lastBus t 0).write.toNat, 1), (t.bus.length, 1)]) = true := by decide

/-- 95_test_vectors.md D6. -/
theorem test_ldrbImm : answers (go (setM (bytes (base 16 0x8000)) 16 1 0x00001000) 0xE5D10001 false) (fun t => [(getM t 16
    0, 0x00000033), (t.pc.toNat, 0x8004), ((lastBus t 0).addr.toNat, 0x1001), ((lastBus t 0).write.toNat, 0), (t.bus.length,
    1)]) = true := by decide

/-- 95_test_vectors.md F11. -/
theorem test_undSpace : answers (go (base 16 0x8000) 0xE7F000F0 false) (fun t => [(getM t 27 14, 0x00008004), (gsp t 27,
    0x00000010), (t.cpsr.toNat, 0x0000009B), (t.pc.toNat, 0x00000004)]) = true := by decide

/-- Hand-calculated. -/
theorem test_strtReg : answers (go (setM (setM (setM (words (base 0x10 0x8000)) 0x10 0 0x12345678) 0x10 1 0x1000) 0x10 2 8)
    0xE6A10002 false) (fun t => [(rdW t 0x1000, 0x12345678), (getM t 0x10 1, 0x1008)]) = true := by decide

/-- Hand-calculated. -/
theorem test_ldrtReg : answers (go (setM (setM (words (base 0x10 0x8000)) 0x10 1 0x1004) 0x10 2 8) 0xE6B10002 false) (fun t
    => [(getM t 0x10 0, 0xA04), (getM t 0x10 1, 0x100C)]) = true := by decide

/-- Hand-calculated. -/
theorem test_strbtReg : answers (go (setM (setM (setM (words (base 0x10 0x8000)) 0x10 0 0x12345678) 0x10 1 0x1000) 0x10 2 8)
    0xE6E10002 false) (fun t => [(rdW t 0x1000, 0xA78), (getM t 0x10 1, 0x1008)]) = true := by decide

/-- Hand-calculated. -/
theorem test_ldrbtReg : answers (go (setM (setM (words (base 0x10 0x8000)) 0x10 1 0x1001) 0x10 2 8) 0xE6F10002 false) (fun t
    => [(getM t 0x10 0, 0x0A), (getM t 0x10 1, 0x1009)]) = true := by decide

/-- Hand-calculated. -/
theorem test_strReg : answers (go (setM (setM (setM (words (base 0x10 0x8000)) 0x10 0 0x12345678) 0x10 1 0x1000) 0x10 2 8)
    0xE7810002 false) (fun t => [(rdW t 0x1008, 0x12345678)]) = true := by decide

/-- 95_test_vectors.md D10. -/
theorem test_ldrReg : answers (go (setM (setM (bytes (base 16 0x8000)) 16 1 0x00001008) 16 2 0x00000001) 0xE7110102 false)
    (fun t => [(getM t 16 0, 0x8566F788), (t.pc.toNat, 0x8004), ((lastBus t 0).addr.toNat, 0x1004), ((lastBus t
    0).write.toNat, 0), (t.bus.length, 1)]) = true := by decide

/-- Hand-calculated. -/
theorem test_strbReg : answers (go (setM (setM (setM (words (base 0x10 0x8000)) 0x10 0 0x12345678) 0x10 1 0x1000) 0x10 2 8)
    0xE7C10002 false) (fun t => [(rdW t 0x1008, 0xA78)]) = true := by decide

/-- Hand-calculated. -/
theorem test_ldrbReg : answers (go (setM (setM (words (base 0x10 0x8000)) 0x10 1 0x1000) 0x10 2 5) 0xE7D10002 false) (fun t
    => [(getM t 0x10 0, 0x0A)]) = true := by decide

/-- 95_test_vectors.md E8. -/
theorem test_stm1 : answers (go (setM (setM (setM (setM (base 16 0x8000) 16 0 0x00002000) 16 1 0x00000011) 16 13 0x00003000)
    16 14 0x00008765) 0xE880FFFF false) (fun t => [(t.pc.toNat, 0x8004), (rdW t 0x2000, 0x2000), (rdW t 0x2004, 0x11), (rdW
    t 0x2008, 0x0), (rdW t 0x200C, 0x0), (rdW t 0x2010, 0x0), (rdW t 0x2014, 0x0), (rdW t 0x2018, 0x0), (rdW t 0x201C, 0x0),
    (rdW t 0x2020, 0x0), (rdW t 0x2024, 0x0), (rdW t 0x2028, 0x0), (rdW t 0x202C, 0x0), (rdW t 0x2030, 0x0), (rdW t 0x2034,
    0x3000), (rdW t 0x2038, 0x8765), (rdW t 0x203C, 0x800C)]) = true := by decide

/-- 95_test_vectors.md E1. -/
theorem test_ldm1 : answers (go (setM (words (base 16 0x8000)) 16 12 0x00001000) 0xE89C000E false) (fun t => [(getM t 16 1,
    0x00000A00), (getM t 16 2, 0x00000A04), (getM t 16 3, 0x00000A08), (getM t 16 12, 0x00001000), (t.pc.toNat, 0x8004)]) =
    true := by decide

/-- 95_test_vectors.md E12. -/
theorem test_stm2 : answers (go (setM (setM (setM (setM (setM (base 209 0x8000) 17 0 0x00002000) 17 13 0x00000F1D) 17 14
    0x00000F1E) 16 13 0xAAAA) 16 14 0xBBBB) 0xE8C06000 false) (fun t => [(t.pc.toNat, 0x8004), (rdW t 0x2000, 0xAAAA), (rdW
    t 0x2004, 0xBBBB)]) = true := by decide

/-- 95_test_vectors.md E13. -/
theorem test_ldm2 : answers (go (setM (setM (setM (words (base 211 0x8000)) 19 0 0x00001000) 19 13 0x00000F1D) 19 14
    0x00000F1E) 0xE8D06000 false) (fun t => [(getM t 19 13, 0x00000F1D), (getM t 19 14, 0x00000F1E), (getM t 16 13,
    0x00000A00), (getM t 16 14, 0x00000A04), (t.pc.toNat, 0x8004)]) = true := by decide

/-- 95_test_vectors.md E14. -/
theorem test_ldm3 : answers (go (sps (setM (words (base 146 0x8000)) 18 13 0x00001000) 18 0x20000010) 0xE8FD8001 false) (fun
    t => [(getM t 18 0, 0x00000A00), (getM t 18 13, 0x00001008), (t.cpsr.toNat, 0x20000010), (t.pc.toNat, 0x00000A04)]) =
    true := by decide

/-- 95_test_vectors.md F1. -/
theorem test_b : answers (go (base 16 0x8000) 0xEA000002 false) (fun t => [(t.pc.toNat, 0x00008010)]) = true := by decide

/-- 95_test_vectors.md F4. -/
theorem test_bl : answers (go (setM (base 16 0x8000) 16 14 0x00000000) 0xEB0003FE false) (fun t => [(getM t 16 14,
    0x00008004), (t.pc.toNat, 0x00009000)]) = true := by decide

/-- Hand-calculated. -/
theorem test_undCop : answers (go (base 0x10 0x8000) 0xEC100123 false) (fun t => [(getM t 0x1B 14, 0x8004), (gsp t 0x1B,
    0x10), (t.cpsr.toNat, 0x9B), (t.pc.toNat, 4)]) = true := by decide

/-- 95_test_vectors.md F12. -/
theorem test_cdp : answers (go (base 16 0x8000) 0xEE110702 false) (fun t => [(getM t 27 14, 0x00008004), (t.cpsr.toNat,
    0x0000009B), (t.pc.toNat, 0x00000004)]) = true := by decide

/-- 95_test_vectors.md F10. -/
theorem test_swi : answers (go (base 0x60000010 0x8000) 0xEF123456 false) (fun t => [(getM t 19 14, 0x00008004), (gsp t 19,
    0x60000010), (t.cpsr.toNat, 0x60000093), (t.pc.toNat, 0x00000008)]) = true := by decide

/-- 95_test_vectors.md T1. -/
theorem test_tLslImm : answers (go (setM (base 0x20000030 0x8000) 16 1 0x80000000) 0x0008 true) (fun t => [(getM t 16 0,
    0x80000000), (t.pc.toNat, 0x8002), (t.cpsr.toNat / 2^28, 10)]) = true := by decide

/-- 95_test_vectors.md T3. -/
theorem test_tLsrImm : answers (go (setM (base 48 0x8000) 16 1 0x80000000) 0x0808 true) (fun t => [(getM t 16 0,
    0x00000000), (t.pc.toNat, 0x8002), (t.cpsr.toNat / 2^28, 6)]) = true := by decide

/-- 95_test_vectors.md T5. -/
theorem test_tAsrImm : answers (go (setM (base 48 0x8000) 16 1 0x80000000) 0x1008 true) (fun t => [(getM t 16 0,
    0xFFFFFFFF), (t.pc.toNat, 0x8002), (t.cpsr.toNat / 2^28, 10)]) = true := by decide

/-- 95_test_vectors.md T7. -/
theorem test_tAddReg : answers (go (setM (setM (base 48 0x8000) 16 1 0x7FFFFFFF) 16 2 0x00000001) 0x1888 true) (fun t =>
    [(getM t 16 0, 0x80000000), (t.pc.toNat, 0x8002), (t.cpsr.toNat / 2^28, 9)]) = true := by decide

/-- 95_test_vectors.md T8. -/
theorem test_tSubReg : answers (go (setM (setM (base 48 0x8000) 16 1 0x00000000) 16 2 0x00000001) 0x1A88 true) (fun t =>
    [(getM t 16 0, 0xFFFFFFFF), (t.pc.toNat, 0x8002), (t.cpsr.toNat / 2^28, 8)]) = true := by decide

/-- 95_test_vectors.md T9. -/
theorem test_tAddImm3 : answers (go (setM (base 48 0x8000) 16 1 0xFFFFFFF9) 0x1DC8 true) (fun t => [(getM t 16 0,
    0x00000000), (t.pc.toNat, 0x8002), (t.cpsr.toNat / 2^28, 6)]) = true := by decide

/-- 95_test_vectors.md T10. -/
theorem test_tSubImm3 : answers (go (setM (base 48 0x8000) 16 1 0x00000001) 0x1E48 true) (fun t => [(getM t 16 0,
    0x00000000), (t.pc.toNat, 0x8002), (t.cpsr.toNat / 2^28, 6)]) = true := by decide

/-- 95_test_vectors.md T12. -/
theorem test_tMovImm : answers (go (setM (base 0xb0000030 0x8000) 16 0 0x00000055) 0x2000 true) (fun t => [(getM t 16 0,
    0x00000000), (t.pc.toNat, 0x8002), (t.cpsr.toNat / 2^28, 7)]) = true := by decide

/-- 95_test_vectors.md T14. -/
theorem test_tCmpImm : answers (go (setM (base 48 0x8000) 16 0 0x00000000) 0x2801 true) (fun t => [(getM t 16 0,
    0x00000000), (t.pc.toNat, 0x8002), (t.cpsr.toNat / 2^28, 8)]) = true := by decide

/-- 95_test_vectors.md T15. -/
theorem test_tAddImm : answers (go (setM (base 48 0x8000) 16 0 0xFFFFFF01) 0x30FF true) (fun t => [(getM t 16 0,
    0x00000000), (t.pc.toNat, 0x8002), (t.cpsr.toNat / 2^28, 6)]) = true := by decide

/-- 95_test_vectors.md T16. -/
theorem test_tSubImm : answers (go (setM (base 48 0x8000) 16 0 0x80000000) 0x3801 true) (fun t => [(getM t 16 0,
    0x7FFFFFFF), (t.pc.toNat, 0x8002), (t.cpsr.toNat / 2^28, 3)]) = true := by decide

/-- 95_test_vectors.md T17. -/
theorem test_tAnd : answers (go (setM (setM (base 0x30000030 0x8000) 16 0 0xFF00FF00) 16 1 0x0FF00FF0) 0x4008 true) (fun t
    => [(getM t 16 0, 0x0F000F00), (t.pc.toNat, 0x8002), (t.cpsr.toNat / 2^28, 3)]) = true := by decide

/-- 95_test_vectors.md T18. -/
theorem test_tEor : answers (go (setM (setM (base 48 0x8000) 16 0 0xFFFFFFFF) 16 1 0xFFFFFFFF) 0x4048 true) (fun t => [(getM
    t 16 0, 0x00000000), (t.pc.toNat, 0x8002), (t.cpsr.toNat / 2^28, 4)]) = true := by decide

/-- 95_test_vectors.md T19. -/
theorem test_tLsl : answers (go (setM (setM (base 48 0x8000) 16 0 0x00000001) 16 1 0x00000020) 0x4088 true) (fun t => [(getM
    t 16 0, 0x00000000), (t.pc.toNat, 0x8002), (t.cpsr.toNat / 2^28, 6)]) = true := by decide

/-- 95_test_vectors.md T22. -/
theorem test_tLsr : answers (go (setM (setM (base 48 0x8000) 16 0 0x80000000) 16 1 0x0000001F) 0x40C8 true) (fun t => [(getM
    t 16 0, 0x00000001), (t.pc.toNat, 0x8002), (t.cpsr.toNat / 2^28, 0)]) = true := by decide

/-- 95_test_vectors.md T23. -/
theorem test_tAsr : answers (go (setM (setM (base 48 0x8000) 16 0 0x80000000) 16 1 0x000000FF) 0x4108 true) (fun t => [(getM
    t 16 0, 0xFFFFFFFF), (t.pc.toNat, 0x8002), (t.cpsr.toNat / 2^28, 10)]) = true := by decide

/-- 95_test_vectors.md T24. -/
theorem test_tAdc : answers (go (setM (setM (base 0x20000030 0x8000) 16 0 0xFFFFFFFF) 16 1 0x00000000) 0x4148 true) (fun t
    => [(getM t 16 0, 0x00000000), (t.pc.toNat, 0x8002), (t.cpsr.toNat / 2^28, 6)]) = true := by decide

/-- 95_test_vectors.md T25. -/
theorem test_tSbc : answers (go (setM (setM (base 48 0x8000) 16 0 0x00000005) 16 1 0x00000005) 0x4188 true) (fun t => [(getM
    t 16 0, 0xFFFFFFFF), (t.pc.toNat, 0x8002), (t.cpsr.toNat / 2^28, 8)]) = true := by decide

/-- 95_test_vectors.md T26. -/
theorem test_tRor : answers (go (setM (setM (base 48 0x8000) 16 0 0x000000F1) 16 1 0x00000004) 0x41C8 true) (fun t => [(getM
    t 16 0, 0x1000000F), (t.pc.toNat, 0x8002), (t.cpsr.toNat / 2^28, 0)]) = true := by decide

/-- 95_test_vectors.md T28. -/
theorem test_tTst : answers (go (setM (setM (base 0x20000030 0x8000) 16 0 0x0000000F) 16 1 0x000000F0) 0x4208 true) (fun t
    => [(getM t 16 0, 0x0000000F), (t.pc.toNat, 0x8002), (t.cpsr.toNat / 2^28, 6)]) = true := by decide

/-- 95_test_vectors.md T29. -/
theorem test_tNeg : answers (go (setM (base 48 0x8000) 16 1 0x00000001) 0x4248 true) (fun t => [(getM t 16 0, 0xFFFFFFFF),
    (t.pc.toNat, 0x8002), (t.cpsr.toNat / 2^28, 8)]) = true := by decide

/-- 95_test_vectors.md T32. -/
theorem test_tCmp : answers (go (setM (setM (base 48 0x8000) 16 0 0x80000000) 16 1 0x00000001) 0x4288 true) (fun t => [(getM
    t 16 0, 0x80000000), (t.pc.toNat, 0x8002), (t.cpsr.toNat / 2^28, 3)]) = true := by decide

/-- 95_test_vectors.md T33. -/
theorem test_tCmn : answers (go (setM (setM (base 48 0x8000) 16 0 0x7FFFFFFF) 16 1 0x00000001) 0x42C8 true) (fun t => [(getM
    t 16 0, 0x7FFFFFFF), (t.pc.toNat, 0x8002), (t.cpsr.toNat / 2^28, 9)]) = true := by decide

/-- 95_test_vectors.md T34. -/
theorem test_tOrr : answers (go (setM (setM (base 48 0x8000) 16 0 0x80000000) 16 1 0x00000001) 0x4308 true) (fun t => [(getM
    t 16 0, 0x80000001), (t.pc.toNat, 0x8002), (t.cpsr.toNat / 2^28, 8)]) = true := by decide

/-- 95_test_vectors.md T35. -/
theorem test_tMul : answers (go (setM (setM (base 0x10000030 0x8000) 16 0 0x00010001) 16 1 0x00010001) 0x4348 true) (fun t
    => [(getM t 16 0, 0x00020001)]) = true := by decide

/-- 95_test_vectors.md T37. -/
theorem test_tBic : answers (go (setM (setM (base 48 0x8000) 16 0 0xFFFFFFFF) 16 1 0xFFFFFFFF) 0x4388 true) (fun t => [(getM
    t 16 0, 0x00000000), (t.pc.toNat, 0x8002), (t.cpsr.toNat / 2^28, 4)]) = true := by decide

/-- 95_test_vectors.md T38. -/
theorem test_tMvn : answers (go (setM (base 48 0x8000) 16 1 0x00000000) 0x43C8 true) (fun t => [(getM t 16 0, 0xFFFFFFFF),
    (t.pc.toNat, 0x8002), (t.cpsr.toNat / 2^28, 8)]) = true := by decide

/-- 95_test_vectors.md T39. -/
theorem test_tAddHi : answers (go (setM (setM (base 48 0x8000) 16 0 0xFFFFFFFF) 16 8 0x00000002) 0x4440 true) (fun t =>
    [(getM t 16 0, 0x00000001), (t.pc.toNat, 0x8002), (t.cpsr.toNat / 2^28, 0)]) = true := by decide

/-- 95_test_vectors.md T43. -/
theorem test_tCmpHi : answers (go (setM (setM (base 48 0x8000) 16 0 0x00000005) 16 8 0x00000005) 0x4540 true) (fun t =>
    [(t.pc.toNat, 0x8002), (t.cpsr.toNat / 2^28, 6)]) = true := by decide

/-- 95_test_vectors.md T45. -/
theorem test_tMovHi : answers (go (setM (base 0xf0000030 0x8000) 16 8 0x00001234) 0x46C0 true) (fun t => [(getM t 16 8,
    0x00001234), (t.pc.toNat, 0x00008002), (t.cpsr.toNat / 2^28, 15)]) = true := by decide

/-- 95_test_vectors.md U40. -/
theorem test_tBx : answers (go (setM (bytes (base 48 0x8000)) 16 0 0x00009000) 0x4700 true) (fun t => [(t.pc.toNat,
    0x00009000), ((t.cpsr.getLsbD 5).toNat, 0)]) = true := by decide

/-- 95_test_vectors.md U1. -/
theorem test_tLdrPc : answers (go (putW (bytes (base 48 0x8000)) 0x8008 0xCAFEF00D) 0x4801 true) (fun t => [(getM t 16 0,
    0xCAFEF00D), (t.pc.toNat, 0x8002), ((lastBus t 0).addr.toNat, 0x8008), ((lastBus t 0).write.toNat, 0), (t.bus.length,
    1)]) = true := by decide

/-- 95_test_vectors.md U3. -/
theorem test_tStrReg : answers (go (setM (setM (setM (bytes (base 48 0x8000)) 16 0 0xAABBCCDD) 16 1 0x00002000) 16 2
    0x00000004) 0x5088 true) (fun t => [(t.pc.toNat, 0x8002), (rdB t 0x2004, 0xDD), (rdB t 0x2005, 0xCC), (rdB t 0x2006,
    0xBB), (rdB t 0x2007, 0xAA), ((lastBus t 0).addr.toNat, 0x2004), ((lastBus t 0).write.toNat, 1), (t.bus.length, 1)]) =
    true := by decide

/-- 95_test_vectors.md U7. -/
theorem test_tStrhReg : answers (go (setM (setM (setM (bytes (base 48 0x8000)) 16 0 0xAABBCCDD) 16 1 0x00002000) 16 2
    0x00000002) 0x5288 true) (fun t => [(t.pc.toNat, 0x8002), (rdB t 0x2000, 0x00), (rdB t 0x2001, 0x00), (rdB t 0x2002,
    0xDD), (rdB t 0x2003, 0xCC), ((lastBus t 0).addr.toNat, 0x2002), ((lastBus t 0).write.toNat, 1), (t.bus.length, 1)]) =
    true := by decide

/-- 95_test_vectors.md U4. -/
theorem test_tStrbReg : answers (go (setM (setM (setM (bytes (base 48 0x8000)) 16 0 0xAABBCCDD) 16 1 0x00002000) 16 2
    0x00000003) 0x5488 true) (fun t => [(t.pc.toNat, 0x8002), (rdB t 0x2000, 0x00), (rdB t 0x2001, 0x00), (rdB t 0x2002,
    0x00), (rdB t 0x2003, 0xDD), ((lastBus t 0).addr.toNat, 0x2003), ((lastBus t 0).write.toNat, 1), (t.bus.length, 1)]) =
    true := by decide

/-- 95_test_vectors.md U9. -/
theorem test_tLdsbReg : answers (go (setM (setM (bytes (base 48 0x8000)) 16 1 0x00001000) 16 2 0x00000004) 0x5688 true) (fun
    t => [(getM t 16 0, 0xFFFFFF88), (t.pc.toNat, 0x8002), ((lastBus t 0).addr.toNat, 0x1004), ((lastBus t 0).write.toNat,
    0), (t.bus.length, 1)]) = true := by decide

/-- 95_test_vectors.md U5. -/
theorem test_tLdrReg : answers (go (setM (setM (bytes (base 48 0x8000)) 16 1 0x00000FFC) 16 2 0x00000008) 0x5888 true) (fun
    t => [(getM t 16 0, 0x8566F788), (t.pc.toNat, 0x8002), ((lastBus t 0).addr.toNat, 0x1004), ((lastBus t 0).write.toNat,
    0), (t.bus.length, 1)]) = true := by decide

/-- 95_test_vectors.md U8. -/
theorem test_tLdrhReg : answers (go (setM (setM (bytes (base 48 0x8000)) 16 1 0x00001000) 16 2 0x00000006) 0x5A88 true) (fun
    t => [(getM t 16 0, 0x00008566), (t.pc.toNat, 0x8002), ((lastBus t 0).addr.toNat, 0x1006), ((lastBus t 0).write.toNat,
    0), (t.bus.length, 1)]) = true := by decide

/-- 95_test_vectors.md U6. -/
theorem test_tLdrbReg : answers (go (setM (setM (bytes (base 48 0x8000)) 16 1 0x00001000) 16 2 0x00000005) 0x5C88 true) (fun
    t => [(getM t 16 0, 0x000000F7), (t.pc.toNat, 0x8002), ((lastBus t 0).addr.toNat, 0x1005), ((lastBus t 0).write.toNat,
    0), (t.bus.length, 1)]) = true := by decide

/-- 95_test_vectors.md U10. -/
theorem test_tLdshReg : answers (go (setM (setM (bytes (base 48 0x8000)) 16 1 0x00001000) 16 2 0x00000006) 0x5E88 true) (fun
    t => [(getM t 16 0, 0xFFFF8566), (t.pc.toNat, 0x8002), ((lastBus t 0).addr.toNat, 0x1006), ((lastBus t 0).write.toNat,
    0), (t.bus.length, 1)]) = true := by decide

/-- 95_test_vectors.md U12. -/
theorem test_tStrImm : answers (go (setM (setM (bytes (base 48 0x8000)) 16 0 0x01020304) 16 1 0x00002000) 0x67C8 true) (fun
    t => [(t.pc.toNat, 0x8002), (rdB t 0x207c, 0x04), (rdB t 0x207d, 0x03), (rdB t 0x207e, 0x02), (rdB t 0x207f, 0x01),
    ((lastBus t 0).addr.toNat, 0x207C), ((lastBus t 0).write.toNat, 1), (t.bus.length, 1)]) = true := by decide

/-- 95_test_vectors.md U13. -/
theorem test_tLdrImm : answers (go (setM (bytes (base 48 0x8000)) 16 1 0x00001000) 0x6848 true) (fun t => [(getM t 16 0,
    0x8566F788), (t.pc.toNat, 0x8002), ((lastBus t 0).addr.toNat, 0x1004), ((lastBus t 0).write.toNat, 0), (t.bus.length,
    1)]) = true := by decide

/-- 95_test_vectors.md U14. -/
theorem test_tStrbImm : answers (go (setM (setM (bytes (base 48 0x8000)) 16 0 0x000001FF) 16 1 0x00002000) 0x77C8 true) (fun
    t => [(t.pc.toNat, 0x8002), (rdB t 0x201c, 0x00), (rdB t 0x201d, 0x00), (rdB t 0x201e, 0x00), (rdB t 0x201f, 0xFF),
    ((lastBus t 0).addr.toNat, 0x201F), ((lastBus t 0).write.toNat, 1), (t.bus.length, 1)]) = true := by decide

/-- 95_test_vectors.md U15. -/
theorem test_tLdrbImm : answers (go (setM (bytes (base 48 0x8000)) 16 1 0x00001000) 0x79C8 true) (fun t => [(getM t 16 0,
    0x00000085), (t.pc.toNat, 0x8002), ((lastBus t 0).addr.toNat, 0x1007), ((lastBus t 0).write.toNat, 0), (t.bus.length,
    1)]) = true := by decide

/-- 95_test_vectors.md U16. -/
theorem test_tStrhImm : answers (go (setM (setM (bytes (base 48 0x8000)) 16 0 0xAABBCCDD) 16 1 0x00002000) 0x87C8 true) (fun
    t => [(t.pc.toNat, 0x8002), (rdB t 0x203c, 0x00), (rdB t 0x203d, 0x00), (rdB t 0x203e, 0xDD), (rdB t 0x203f, 0xCC),
    ((lastBus t 0).addr.toNat, 0x203E), ((lastBus t 0).write.toNat, 1), (t.bus.length, 1)]) = true := by decide

/-- 95_test_vectors.md U17. -/
theorem test_tLdrhImm : answers (go (setM (bytes (base 48 0x8000)) 16 1 0x00001000) 0x88C8 true) (fun t => [(getM t 16 0,
    0x00008566), (t.pc.toNat, 0x8002), ((lastBus t 0).addr.toNat, 0x1006), ((lastBus t 0).write.toNat, 0), (t.bus.length,
    1)]) = true := by decide

/-- 95_test_vectors.md U18. -/
theorem test_tStrSp : answers (go (setM (setM (bytes (base 48 0x8000)) 16 0 0x0A0B0C0D) 16 13 0x00002000) 0x9002 true) (fun
    t => [(t.pc.toNat, 0x8002), (rdB t 0x2008, 0x0D), (rdB t 0x2009, 0x0C), (rdB t 0x200a, 0x0B), (rdB t 0x200b, 0x0A),
    ((lastBus t 0).addr.toNat, 0x2008), ((lastBus t 0).write.toNat, 1), (t.bus.length, 1)]) = true := by decide

/-- 95_test_vectors.md U19. -/
theorem test_tLdrSp : answers (go (setM (bytes (base 48 0x8000)) 16 13 0x00001000) 0x9801 true) (fun t => [(getM t 16 0,
    0x8566F788), (t.pc.toNat, 0x8002), ((lastBus t 0).addr.toNat, 0x1004), ((lastBus t 0).write.toNat, 0), (t.bus.length,
    1)]) = true := by decide

/-- 95_test_vectors.md T48. -/
theorem test_tAddPc : answers (go (base 48 0x8002) 0xA002 true) (fun t => [(getM t 16 0, 0x0000800C), (t.pc.toNat, 0x8004)])
    = true := by decide

/-- 95_test_vectors.md T50. -/
theorem test_tAddSp : answers (go (setM (base 48 0x8000) 16 13 0x00002000) 0xA9FF true) (fun t => [(getM t 16 1,
    0x000023FC), (t.pc.toNat, 0x8002)]) = true := by decide

/-- 95_test_vectors.md T51. -/
theorem test_tIncSp : answers (go (setM (base 48 0x8000) 16 13 0x00002000) 0xB07F true) (fun t => [(getM t 16 13,
    0x000021FC), (t.pc.toNat, 0x8002)]) = true := by decide

/-- 95_test_vectors.md T52. -/
theorem test_tDecSp : answers (go (setM (base 48 0x8000) 16 13 0x00002000) 0xB084 true) (fun t => [(getM t 16 13,
    0x00001FF0), (t.pc.toNat, 0x8002)]) = true := by decide

/-- 95_test_vectors.md U20. -/
theorem test_tPush : answers (go (setM (setM (setM (setM (bytes (base 48 0x8000)) 16 0 0x0000000A) 16 1 0x0000000B) 16 13
    0x00002010) 16 14 0x00008055) 0xB503 true) (fun t => [(getM t 16 13, 0x00002004), (t.pc.toNat, 0x8002), (rdB t 0x2004,
    0x0A), (rdB t 0x2005, 0x00), (rdB t 0x2006, 0x00), (rdB t 0x2007, 0x00), (rdB t 0x2008, 0x0B), (rdB t 0x2009, 0x00),
    (rdB t 0x200a, 0x00), (rdB t 0x200b, 0x00), (rdB t 0x200c, 0x55), (rdB t 0x200d, 0x80), (rdB t 0x200e, 0x00), (rdB t
    0x200f, 0x00), ((lastBus t 0).addr.toNat, 0x200C), ((lastBus t 0).write.toNat, 1), ((lastBus t 1).addr.toNat, 0x2008),
    ((lastBus t 1).write.toNat, 1), (((t.bus.getD 2 ⟨0,.byte,false,0,false,0,false,false,false,false⟩).addr.toNat), 0x2004),
    ((if (t.bus.getD 2 ⟨0,.byte,false,0,false,0,false,false,false,false⟩).write then 1 else 0), 1), (t.bus.length, 3)]) =
    true := by decide

/-- 95_test_vectors.md U21. -/
theorem test_tPop : answers (go (setM (bytes (base 48 0x8000)) 16 13 0x00001000) 0xBC03 true) (fun t => [(getM t 16 0,
    0x11223344), (getM t 16 1, 0x8566F788), (getM t 16 13, 0x00001008), (t.pc.toNat, 0x8002), ((lastBus t 0).addr.toNat,
    0x1004), ((lastBus t 0).write.toNat, 0), ((lastBus t 1).addr.toNat, 0x1000), ((lastBus t 1).write.toNat, 0),
    (t.bus.length, 2)]) = true := by decide

/-- 95_test_vectors.md U46. -/
theorem test_tUnd1011 : answers (go (bytes (base 48 0x8002)) 0xB100 true) (fun t => [(getM t 27 14, 0x00008004), (gsp t 27,
    0x00000030), (t.cpsr.toNat, 0x0000009B), (t.pc.toNat, 0x00000004)]) = true := by decide

/-- 95_test_vectors.md U24. -/
theorem test_tStmia : answers (go (setM (setM (setM (bytes (base 48 0x8000)) 16 0 0x00002000) 16 1 0x00000011) 16 2
    0x00000022) 0xC006 true) (fun t => [(getM t 16 0, 0x00002008), (t.pc.toNat, 0x8002), (rdB t 0x2000, 0x11), (rdB t
    0x2001, 0x00), (rdB t 0x2002, 0x00), (rdB t 0x2003, 0x00), (rdB t 0x2004, 0x22), (rdB t 0x2005, 0x00), (rdB t 0x2006,
    0x00), (rdB t 0x2007, 0x00), ((lastBus t 0).addr.toNat, 0x2004), ((lastBus t 0).write.toNat, 1), ((lastBus t
    1).addr.toNat, 0x2000), ((lastBus t 1).write.toNat, 1), (t.bus.length, 2)]) = true := by decide

/-- 95_test_vectors.md U26. -/
theorem test_tLdmia : answers (go (setM (bytes (base 48 0x8000)) 16 0 0x00001000) 0xC806 true) (fun t => [(getM t 16 0,
    0x00001008), (getM t 16 1, 0x11223344), (getM t 16 2, 0x8566F788), (t.pc.toNat, 0x8002), ((lastBus t 0).addr.toNat,
    0x1004), ((lastBus t 0).write.toNat, 0), ((lastBus t 1).addr.toNat, 0x1000), ((lastBus t 1).write.toNat, 0),
    (t.bus.length, 2)]) = true := by decide

/-- 95_test_vectors.md U44. -/
theorem test_tUndDE : answers (go (bytes (base 48 0x8000)) 0xDE00 true) (fun t => [(getM t 27 14, 0x00008002), (gsp t 27,
    0x00000030), (t.cpsr.toNat, 0x0000009B), (t.pc.toNat, 0x00000004)]) = true := by decide

/-- 95_test_vectors.md U33. -/
theorem test_tSwi : answers (go (bytes (base 0x60000030 0x8000)) 0xDFAB true) (fun t => [(getM t 19 14, 0x00008002), (gsp t
    19, 0x60000030), (t.cpsr.toNat, 0x60000093), (t.pc.toNat, 0x00000008)]) = true := by decide

/-- 95_test_vectors.md U28. -/
theorem test_tBCond : answers (go (bytes (base 0x40000030 0x8000)) 0xD006 true) (fun t => [(t.pc.toNat, 0x00008010)]) = true
    := by decide

/-- 95_test_vectors.md U34. -/
theorem test_tB : answers (go (bytes (base 48 0x8000)) 0xE3FF true) (fun t => [(t.pc.toNat, 0x00008802)]) = true := by decide

/-- 95_test_vectors.md U45. -/
theorem test_tUnd11101 : answers (go (bytes (base 48 0x8000)) 0xE800 true) (fun t => [(getM t 27 14, 0x00008002), (gsp t 27,
    0x00000030), (t.cpsr.toNat, 0x0000009B), (t.pc.toNat, 0x00000004)]) = true := by decide

/-- 95_test_vectors.md U38. -/
theorem test_tBl1 : answers (go (setM (bytes (base 48 0x8000)) 16 14 0x00000000) 0xF7FE true) (fun t => [(getM t 16 14,
    0x00006004), (t.pc.toNat, 0x00008002)]) = true := by decide

/-- 95_test_vectors.md U39. -/
theorem test_tBl2 : answers (go (setM (bytes (base 48 0x8002)) 16 14 0x00006004) 0xFFFE true) (fun t => [(getM t 16 14,
    0x00008005), (t.pc.toNat, 0x00007000)]) = true := by decide

/-- Hand-calculated: the coprocessor's word is stored at R1 + 4. -/
theorem test_stc : answers (go { setM (base 0x10 0x8000) 16 1 0x1000 with cop := ⟨[.accept 0 [0xCAFE#32]], []⟩ } 0xED810401 false)
    (fun t => [(rdW t 0x1004, 0xCAFE), (t.pc.toNat, 0x8004), (t.cop.replies.length, 0)]) = true := by decide

/-- Hand-calculated: the word at R1 + 4 reaches the coprocessor. -/
theorem test_ldc :
    answers (go { words (setM (base 0x10 0x8000) 16 1 0x1000) with cop := ⟨[.accept 0 []], []⟩ } 0xED910401 false)
      (fun t => [(if t.cop.log.getLast? = some (.loaded 0xA04#32) then 1 else 0, 1), (t.pc.toNat, 0x8004)]) = true := by decide

/-- Hand-calculated: R2 reaches the coprocessor. -/
theorem test_mcr : answers (go { setM (base 0x10 0x8000) 16 2 0x77 with cop := ⟨[.accept 0 []], []⟩ } 0xEE002410 false)
    (fun t => [(if t.cop.log.getLast? = some (.moved 0x77#32) then 1 else 0, 1), (t.pc.toNat, 0x8004)]) = true := by decide

/-- Hand-calculated: the coprocessor's word reaches R2. -/
theorem test_mrc : answers (go { base 0x10 0x8000 with cop := ⟨[.accept 0 [7#32]], []⟩ } 0xEE102410 false)
    (fun t => [(getM t 16 2, 7), (t.pc.toNat, 0x8004)]) = true := by decide

/-! ## Witnesses of the statements' hypotheses -/

/-- A result that `answers` accepts is a next state. -/
theorem completes_of_answers {r : Result} {f : State → List (Nat × Nat)} (h : answers r f = true) : Completes r := by
  cases r with
  | next t => exact ⟨t, rfl⟩
  | fault _ => cases h
  | refused _ => cases h

/-- A memory system that aborts every data access of 0x2000 to 0x2FFF. -/
def aborting (s : State) : State :=
  { s with sys := { s.sys with rules := [⟨0x2000, 0x2FFF, false, true, true, [], true, true, none, .abort false⟩] } }

/-- Instructions already in the prefetch queue. -/
def fetchedAs (s : State) (ids : List Word) : State := { s with pipe := { s.pipe with queue := ids.map fun w => ⟨w, false, false⟩ } }

/-- Coprocessors that give one answer. -/
def replying (s : State) (r : CpReply) : State := { s with cop := ⟨[r], []⟩ }

/-- The core under a debugger that is present: DBGEN and nTRST HIGH. -/
def present (s : State) : State := { s with pins := { s.pins with dbgen := true, ntrstLow := false } }

/-- A debugger that has stopped the core, and its next move. -/
def stopped (s : State) (ms : List Move) : State := { s with dbg := { s.dbg with inDebug := true }, schedule := ms }

/-- A run that does not make the refusals of log 45. -/
def lenient (s : State) : State := { s with pins := { s.pins with strict := false } }

/-- Is the result the refusal of an UNPREDICTABLE case by this name? -/
def refusedBy (r : Result) (d : Defect) : Bool :=
  match r with
  | .refused (.unpredictable d') => d == d'
  | _ => false

theorem wit_ArmDecodeEncode : Instr.cond (.bx .ne 0xFFF#12 15#4) = some .ne ∧ Instr.encodable (.bx .ne 0xFFF#12 15#4) = true := by
  decide

theorem wit_ThumbDecodeEncode : Instr.cond (.tBCond .le 0xFF#8) = none ∧ Instr.encodable (.tBCond .le 0xFF#8) = true := by decide

theorem wit_StepRunsDecoded : let s := putW (base 0xD3 0x8000) 0x8000 0xE3A01007
    let i := Instr.movImm .al false 0#4 1#4 ⟨0#4, 7#8⟩
    let q := fetchedAs (base 0xD3 0x8000) [0xE3A01007#32]
    Ready s ∧ pcOk s = true ∧ userBankHazard i s.filled.sampled = false ∧ s.pipe.queue = [] ∧ s.fetchRule s.pc = none ∧
    decodeBytes (bitT s.cpsr) s.pins.bigend
      ((List.range s.width.toNat).map fun k => Memory.read (s.fetchMem s.pc) (byteAddr s.pc k)) = .ok (i, []) ∧
    Ready q ∧ userBankHazard i q.filled.sampled = false ∧ q.pipe.queue = ⟨0xE3A01007#32, false, false⟩ :: [] ∧
    decodeCode (q.codeOf q.pc 0xE3A01007#32) = i :=
  ⟨by unfold Ready Quiet Awake NoDebugDue; decide, by decide, by decide, by decide, by decide, by rfl,
    by unfold Ready Quiet Awake NoDebugDue; decide, by decide, by decide, by decide⟩

theorem wit_InvKept : Machine.Inv (putW (base 0xD3 0x8000) 0x8000 0xE3A01007) ∧
    Completes (step (putW (base 0xD3 0x8000) 0x8000 0xE3A01007)) :=
  ⟨by unfold Machine.Inv; decide, completes_of_answers (f := fun t => [(t.pc.toNat, 0x8004)]) (by decide)⟩

theorem wit_UserModeKept : (base 0x10 0x8000).mode = usrMode ∧ (base 0x10 0x8000).dbg.inDebug = false ∧
    Completes (exec (.msrImm .al false 9#4 15#4 ⟨0#4, 0xD3#8⟩) (base 0x10 0x8000)) ∧
    Completes (exec (.swi .al 0#24) (base 0x10 0x8000)) :=
  ⟨by decide, by decide, completes_of_answers (f := fun t => [(t.cpsr.toNat, 0x10)]) (by decide),
    completes_of_answers (f := fun t => [(t.pc.toNat, 8)]) (by decide)⟩

theorem wit_OnlyStoresWrite : mayStore (.ldm1 .al false true true 13#4 0xFFFF#16) = false ∧ mayStore (.swi .al 0#24) = false ∧
    Alone (base 0x10 0x8000) ∧ Completes (exec (.swi .al 0#24) (base 0x10 0x8000)) :=
  ⟨by decide, by decide, rfl, completes_of_answers (f := fun t => [(t.pc.toNat, 8)]) (by decide)⟩

theorem wit_FailedCondition : Instr.cond (.swi .eq 0#24) = some .eq ∧ Cond.eq ≠ .nv ∧
    conditionPassed .eq (base 0x1F 0xFFFFFFFC).cpsr = false := by decide

theorem wit_UnpredictableRefused : Instr.defect (.swi .nv 0#24) = some .condNever ∧
    Instr.defect (.mul .al false 1#4 0#4 2#4 1#4) = some .regOverlap ∧
    passes (.mul .al false 1#4 0#4 2#4 1#4) (base 0x1F 0) = true ∧ Instr.defect (.tMul 0#3 0#3) = some .regOverlap ∧
    passes (.tMul 0#3 0#3) (base 0x3F 0) = true := by decide

theorem wit_DpImmediate : Runs (dpImm .rsc .al true 15#4 14#4 ⟨15#4, 0xFF#8⟩) (base 0x6000001F 0x100) ∧ (14#4 : Reg) ≠ 15#4 ∧
    Runs (dpImm .cmp .al true 0#4 0#4 ⟨0#4, 0#8⟩) (base 0x1F 0x100) := by
  unfold Runs; decide

theorem wit_DpShiftedByImmediate :
    Runs (dpShiftImm .sbc .al true 15#4 0#4 ⟨0#5, .ror, 15#4⟩) (base 0x2000001F 0x100) ∧ (0#4 : Reg) ≠ 15#4 := by
  unfold Runs; decide

theorem wit_DpShiftedByRegister :
    Runs (dpShiftReg .bic .al true 14#4 0#4 ⟨0#4, .asr, 1#4⟩) (setM (base 0x1F 0x100) 31 0 0x20) ∧ (0#4 : Reg) ≠ 15#4 := by
  unfold Runs; decide

theorem wit_DpToPc : DpOp.compares .mov = false ∧
    Runs (dpImm .mov .al false 0#4 15#4 ⟨0#4, 0xFC#8⟩) (base 0x1F 0x100) ∧
    (op2Imm (base 0x1F 0x100) ⟨0#4, 0xFC#8⟩).val.extractLsb' 0 2 = 0#2 ∧
    Runs (dpImm .mov .al false 0#4 15#4 ⟨0#4, 0xFD#8⟩) (base 0x1F 0x100) ∧
    (op2Imm (base 0x1F 0x100) ⟨0#4, 0xFD#8⟩).val.extractLsb' 0 2 ≠ 0#2 := by
  unfold Runs; decide

theorem wit_DpToPc_return : let i := dpShiftImm .sub .al true 14#4 15#4 ⟨0#5, .lsl, 0#4⟩
    let s := sps (setM (base 0x92 0x18) 18 14 0x8003) 18 0x30
    Runs i s ∧ s.spsrOf s.mode = some 0x30#32 ∧ legalMode (modeOf 0x30#32) = true ∧
    Runs i (base 0x92 0x18) ∧ (base 0x92 0x18).spsrOf (base 0x92 0x18).mode = some 0#32 ∧ legalMode (modeOf 0#32) = false ∧
    Runs i (base 0x1F 0x18) ∧ (base 0x1F 0x18).spsrOf (base 0x1F 0x18).mode = none := by
  unfold Runs; decide

theorem wit_Multiply : let s := setM (base 0x1F 0x100) 31 1 0xFFFFFFFF
    Runs (.mul .al true 0#4 0#4 1#4 1#4) s ∧ Runs (.mla .al false 0#4 0#4 0#4 1#4) s ∧ Runs (.tMul 1#3 0#3) (base 0x3F 0) := by
  unfold Runs; decide

theorem wit_LongMultiply : let s := setM (base 0x1F 0x100) 31 1 0xFFFFFFFF
    (Runs (.umull .al true 3#4 2#4 1#4 1#4) s ∧ (0xFFFFFFFE00000001#64).toNat = (s.reg 1#4).toNat * (s.reg 1#4).toNat) ∧
    (Runs (.umlal .al true 3#4 2#4 1#4 1#4) s ∧ (0xFFFFFFFE00000001#64).toNat = ((s.reg 1#4).toNat * (s.reg 1#4).toNat +
      ((s.reg 3#4).toNat * 2 ^ 32 + (s.reg 2#4).toNat)) % 2 ^ 64) ∧
    (Runs (.smull .al false 3#4 2#4 1#4 1#4) s ∧ (1#64).toInt = (s.reg 1#4).toInt * (s.reg 1#4).toInt) ∧
    Runs (.smlal .al false 3#4 2#4 1#4 1#4) s := by
  unfold Runs; decide

theorem wit_ReadStatus : Runs (.mrs .al true 15#4 1#4 0#4 0#4) (base 0x10 0) ∧ (base 0x10 0).spsrOf (base 0x10 0).mode = none ∧
    (base 0xD3 0).spsrOf (base 0xD3 0).mode = some 0#32 := by
  unfold Runs; decide

theorem wit_WriteCpsr : let i := fun m v => Instr.msrImm .al false m 15#4 ⟨0#4, v⟩
    (Runs (i 9#4 0x9F#8) (base 0x10 0) ∧ (base 0x10 0).mode = usrMode ∧ (base 0x10 0).dbg.inDebug = false) ∧
    (Runs (i 1#4 0x3F#8) (base 0xD3 0) ∧ (base 0xD3 0).mode ≠ usrMode ∧ (1#4).getLsbD 0 = true ∧
      (RotImm.value ⟨0#4, 0x3F#8⟩).getLsbD 5 = true) ∧
    (Runs (i 8#4 0#8) (base 0xD3 0) ∧ (8#4).getLsbD 0 = false ∧ legalMode (base 0xD3 0).mode = true) ∧
    (Runs (i 1#4 0x1F#8) (base 0xD3 0) ∧ (RotImm.value ⟨0#4, 0x1F#8⟩).getLsbD 5 = false ∧
      legalMode (modeOf (RotImm.value ⟨0#4, 0x1F#8⟩)) = true) ∧
    (Runs (i 1#4 0x00#8) (base 0xD3 0) ∧ (RotImm.value ⟨0#4, 0#8⟩).getLsbD 5 = false ∧
      legalMode (modeOf (RotImm.value ⟨0#4, 0#8⟩)) = false) := by
  unfold Runs; decide

theorem wit_WriteCpsr_debug : let s := stopped (base 0x10 0) []
    Runs (.msrImm .al false 1#4 15#4 ⟨0#4, 0x3F#8⟩) s ∧ s.dbg.inDebug = true ∧ s.mode = usrMode ∧
    legalMode (modeOf (RotImm.value ⟨0#4, 0x3F#8⟩)) = true := by
  unfold Runs; decide

theorem wit_WriteSpsr : Runs (.msrReg .al true 15#4 15#4 0#4 1#4) (base 0x1F 0) ∧
    (base 0x1F 0).spsrOf (base 0x1F 0).mode = none ∧ (base 0xD1 0).spsrOf (base 0xD1 0).mode = some 0#32 := by
  unfold Runs; decide

theorem wit_ArmLoads : let s := bytes (setM (base 0x10 0x8000) 16 1 0x1003)
    (Runs (.ldrImm .al ⟨.pre, true, 1#4, 0#4⟩ 1#12) s ∧ Readable s 0x1004#32 .word false ∧ EvenFor .word 0x1004#32) ∧
    (Runs (.ldrbtReg .al false 1#4 0#4 ⟨0#5, .lsr, 2#4⟩) s ∧ Readable s 0x1003#32 .byte true) ∧
    (Runs (.ldrsh .al ⟨false, true, true, false, 1#4, 0#4, 0#4, 0#4⟩) s ∧ ¬ EvenFor .half 0x1003#32) ∧
    EvenFor .half 0xFFFFFFFE#32 := by
  unfold Runs Readable EvenFor; decide

theorem wit_ArmStores : let s := bytes (setM (base 0x10 0x8000) 16 1 0x1002)
    (Runs (.strbImm .al ⟨.pre, false, 1#4, 0#4⟩ 0xFFF#12) s ∧ Writable s 0x3#32 .byte false) ∧
    (Runs (.strtImm .al true 1#4 15#4 0#12) s ∧ Writable s 0x1002#32 .word true) ∧
    (Runs (.strh .al ⟨true, true, true, false, 1#4, 0#4, 0xF#4, 0xF#4⟩) s ∧ ¬ EvenFor .half 0x1101#32) ∧
    s.dbg.inDebug = false := by
  unfold Runs Writable EvenFor; decide

theorem wit_LoadToPc : let s := bytes (setM (base 0x10 0x8000) 16 1 0x1000)
    Runs (.ldrImm .al ⟨.offset, true, 1#4, 15#4⟩ 0#12) s ∧ (0x1000#32).extractLsb' 0 2 = 0#2 ∧ Readable s 0x1000#32 .word false ∧
    Runs (.ldrImm .al ⟨.offset, true, 1#4, 15#4⟩ 3#12) s ∧ (0x1003#32).extractLsb' 0 2 ≠ 0#2 := by
  unfold Runs Readable; decide

theorem wit_Swap : let s := setM (base 0x10 0x8000) 16 1 0x1003
    let s' := aborting (setM (base 0x10 0x8000) 16 1 0x2FFF)
    let g := { s with sys := { s.sys with locks := false, others := [[(0x1000#32, 7#8)]] } }
    Runs (.swp .al 1#4 0#4 0#4 0#4) s ∧ Readable s (s.reg 1#4) .word false ∧ Writable s (s.reg 1#4) .word false ∧
    (s.sys.locks = true ∧ Alone s) ∧ (Runs (.swp .al 1#4 0#4 0#4 0#4) g ∧ Readable g (g.reg 1#4) .word false ∧
      Writable g (g.reg 1#4) .word false ∧ g.sys.locks = false ∧ g.sys.others = [(0x1000#32, 7#8)] :: []) ∧
    Runs (.swpb .al 1#4 0#4 0#4 0#4) s' ∧ Aborts s' (s'.reg 1#4) .byte false false ∧
    (Aborts s' (s'.reg 1#4) .byte true false ∧ (s'.dataRule (s'.reg 1#4) .byte true false).map (fun r => r.answer.lands) = some false ∧
      s'.sys.locks = true ∧ Alone s') := by
  unfold Runs Readable Writable Aborts Alone; decide

theorem wit_SingleAborts : let s := aborting (setM (base 0x10 0x8000) 16 1 0x2FFE)
    let i := Instr.strh .al ⟨true, true, true, false, 1#4, 0#4, 0#4, 0#4⟩
    singleAccess s i = some ⟨0x2FFE#32, .half, true, false, false⟩ ∧ Runs i s ∧ s.debugSpeed = false ∧ s.sys.budget = none ∧
    s.dataRule 0x2FFE#32 .half true false = some ⟨0x2000, 0x2FFF, false, true, true, [], true, true, none, .abort false⟩ ∧
    MemAnswer.aborts (.abort false) = true ∧ EvenFor .half 0x2FFE#32 ∧ Instr.cond i ≠ none ∧
    (let g := lenient (setM s 16 3 0x2001); singleAccess g (.tLdrImm 0#5 3#3 2#3) = some ⟨0x2001#32, .word, false, false, false⟩ ∧ Runs (.tLdrImm 0#5 3#3 2#3) g ∧
      g.pins.strict = false ∧ g.debugSpeed = false ∧ g.sys.budget = none ∧
      g.dataRule 0x2001#32 .word false false = some ⟨0x2000, 0x2FFF, false, true, true, [], true, true, none, .abort false⟩) ∧
    (fetchedAs s [0xE1C100B0#32, 0xEE000110#32]).following = some (.mcr .al ⟨0#3, 0#4, 0#4, 1#4, 0#3, 0#4⟩) := by
  unfold Runs EvenFor; decide

theorem wit_LoadMultiple : let s := words (setM (base 0xD3 0x8000) 19 13 0x1010)
    (Runs (.ldm1 .al false true true 13#4 0x8#16) s ∧ (0x8#16).getLsbD 15 = false ∧ BlockReadable s 0x1010#32 1) ∧
    (Runs (.ldm2 .al true false false 13#4 0x7FFF#15) s ∧ hasUserForm s.mode = true ∧ BlockReadable s 0xFD4#32 15) ∧
    (Runs (.ldm2 .al true false false 13#4 1#15) (base 0x1F 0) ∧ hasUserForm (base 0x1F 0).mode = false) ∧
    (Runs (.tLdmia 0#3 0xFF#8) s ∧ BlockReadable s 0#32 8) ∧ (Runs (.tPop false 0x80#8) s ∧ BlockReadable s 0x1010#32 1) ∧
    let g := { s with sys := { s.sys with others := [[(0x1004#32, 7#8)]] } }
    g.sys.others = [(0x1004#32, 7#8)] :: [] ∧ Readable g 0x1000#32 .word false ∧ Readable g 0x1004#32 .word false := by
  unfold Runs BlockReadable Readable Alone; decide

theorem wit_LoadMultipleToPc : let s := sps (words (setM (base 0xD3 0x8000) 19 13 0x1000)) 19 0x30
    (Runs (.ldm1 .al false true true 13#4 0x8000#16) s ∧ (0x8000#16).getLsbD 15 = true ∧ BlockReadable s 0x1000#32 1) ∧
    (Runs (.ldm3 .al false true true 13#4 0#15) s ∧ s.spsrOf s.mode = some 0x30#32 ∧ legalMode (modeOf 0x30#32) = true) ∧
    (Runs (.ldm3 .al false true true 13#4 0#15) (base 0x1F 0) ∧ (base 0x1F 0).spsrOf (base 0x1F 0).mode = none) ∧
    ((base 0xD3 0).spsrOf (base 0xD3 0).mode = some 0#32 ∧ legalMode (modeOf 0#32) = false ∧ BlockReadable (base 0xD3 0) 0#32 1) ∧
    Runs (.tPop true 0#8) s := by
  unfold Runs BlockReadable Readable Alone; decide

theorem wit_StoreMultiple : let s := setM (base 0xD3 0x8000) 19 13 0x1000
    (Runs (.stm1 .al true false true 13#4 0xE000#16) s ∧ BlockWritable s 0xFF4#32 3) ∧
    (Runs (.stm2 .al false true false 13#4 0xFFFF#16) s ∧ hasUserForm s.mode = true ∧ BlockWritable s 0x1000#32 16) ∧
    (Runs (.stm2 .al false true false 13#4 1#16) (base 0x10 0) ∧ hasUserForm (base 0x10 0).mode = false) ∧
    (Runs (.tStmia 0#3 3#8) s ∧ baseNotLowest 0#3 3#8 = false ∧ BlockWritable s 0#32 2) ∧
    (Runs (.tStmia 1#3 3#8) (lenient s) ∧ (lenient s).pins.strict = false ∧ BlockWritable (lenient s) 0#32 2) ∧
    (Runs (.tStmia 1#3 3#8) s ∧ s.pins.strict = true ∧ baseNotLowest 1#3 3#8 = true) ∧ Runs (.tPush true 0#8) s ∧ BlockWritable s 0xFFC#32 1 := by
  unfold Runs BlockWritable Writable Alone; decide

theorem wit_AbortedBlocks : let s := aborting (setM (setM (base 0xD3 0x8000) 19 13 0x2FFC) 19 1 0x2FFC)
    (Runs (.ldm1 .al false true true 13#4 0x8003#16) s ∧ BlockAborts s 0x2FFC#32 3 false) ∧
    (Runs (.ldm2 .al false true false 13#4 3#15) s ∧ hasUserForm s.mode = true) ∧
    (Runs (.ldm3 .al false true true 13#4 3#15) s ∧ s.spsrOf s.mode ≠ none) ∧ Runs (.tLdmia 1#3 7#8) s ∧ Runs (.tPop true 3#8) s ∧
    (Runs (.stm1 .al false true true 13#4 0x8003#16) s ∧ BlockAborts s 0x2FFC#32 3 true) ∧
    Runs (.stm2 .al false true false 13#4 7#16) s ∧ (Runs (.tStmia 1#3 0xE#8) s ∧ baseNotLowest 1#3 0xE#8 = false) ∧
    (Runs (.tStmia 1#3 7#8) (lenient s) ∧ (lenient s).pins.strict = false ∧ BlockAborts (lenient s) 0x2FFC#32 3 true) ∧
    (Runs (.tPush true 3#8) s ∧ BlockAborts s 0x2FF0#32 3 true) ∧
    (Memory.wf s.mem = true ∧ BlockAborts s 0x1FFC#32 3 true ∧ s.dataRule (wordAddr 0x1FFC#32 0) .word true false = none) := by
  unfold Runs BlockAborts Alone; decide

theorem wit_ArmBranches : bitT (base 0x10 0).cpsr = false ∧ Runs (.b .al 0x800000#24) (base 0x10 0) ∧
    Runs (.bl .al 0x7FFFFF#24) (base 0x10 0) := by
  unfold Runs; decide

theorem wit_BranchExchange : Runs (.bx .al 0xFFF#12 0#4) (base 0x10 0) ∧ Runs (.tBx false true 7#3 0#3) (base 0x30 0x100) ∧
    ((2#32).getLsbD 0 = false ∧ (2#32).getLsbD 1 = true) ∧ (3#32).getLsbD 0 = true ∧ (4#32).getLsbD 1 = false := by
  unfold Runs; decide

theorem wit_ThumbBranches : bitT (base 0x30 0x100).cpsr = true := by decide

theorem wit_SoftwareInterrupt : Runs (.swi .al 0xFFFFFF#24) (base 0x10 0) ∧ Runs (.tSwi 0#8) (base 0x30 2) := by
  unfold Runs; decide

theorem wit_UndefinedInstruction : Runs (.undSpace .al 0x6000010#28) (base 0x10 0) ∧ Runs (.tUndDE 0#8) (base 0x30 2) ∧
    Runs (.undArith .al 0x400090#28) (base 0x10 0) := by
  unfold Runs; decide

theorem wit_HandlerReturns : let s := base 0x30 0x8002
    Machine.Inv s ∧ s.dbg.inDebug = false := by
  unfold Machine.Inv; decide

/-- A state at a boundary with nIRQ and nFIQ LOW, and one with nIRQ LOW alone. -/
theorem wit_InterruptTaken : let s := { base 0x10 0x8000 with pins := { Pins.initial with nirqLow := true, nfiqLow := true } }
    let s' := { base 0x50 0x8000 with pins := { Pins.initial with nirqLow := true } }
    let w := { s' with dbg := { Dbg.clear with watch := .due, stepArmed := true } }
    (Awake s ∧ s.dbg.stepDue = false ∧ dbgrqi s = false ∧ s.ice.dbgCtl.getLsbD 2 = false ∧ s.pins.nfiqLow = true ∧
      maskF s.cpsr = false) ∧
    (Awake s' ∧ s'.dbg.stepDue = false ∧ dbgrqi s' = false ∧ s'.ice.dbgCtl.getLsbD 2 = false ∧ s'.pins.nirqLow = true ∧
      maskI s'.cpsr = false ∧ maskF s'.cpsr = true) ∧ maskI (base 0xD3 0).cpsr = true ∧
    (Awake w ∧ w.dbg.watch = .due ∧ w.dbg.stepArmed = true ∧ w.dbg.stepDue = false ∧ dbgrqi w = false ∧ w.pins.nirqLow = true ∧ maskI w.cpsr = false) := by
  unfold Awake; decide

/-- The memory system aborts the fetch at the PC; then one that was aborted when it was fetched. -/
theorem wit_PrefetchAborted : let r : MemRule := ⟨0x2000, 0x2FFF, true, false, false, [], true, true, none, .abort false⟩
    let s := { base 0x10 0x8000 with pipe := { Pipe.clear with queue := [⟨0#32, true, false⟩] } }
    let s' := { base 0x10 0x2000 with sys := { State.reset.sys with rules := [r] } }
    Quiet s ∧ s.filled.fetchAborts = true ∧ s'.pipe.queue = [] ∧ s'.fetchRule s'.pc = some r ∧
    (base 0x10 0x2000).fetchRule 0x2000#32 = none := by
  unfold Quiet Awake NoDebugDue; decide

theorem wit_ResetPin : ({ base 0x10 4 with schedule := [.reset true, .core] } : State).schedule = .reset true :: [.core] ∧
    ({ base 0x10 4 with inReset := true } : State).inReset = true ∧
    ({ base 0x10 4 with inReset := true } : State).schedule = [] ∧ (base 0x10 4).dbg.inDebug = false ∧
    (let g := lenient (stopped (base 0x10 4) [.reset true]); g.schedule = .reset true :: [] ∧ g.dbg.inDebug = true ∧ g.pins.strict = false) ∧
    (let g := stopped (base 0x10 4) [.resetDuring 0]; g.schedule = .resetDuring 0 :: [] ∧ g.dbg.inDebug = true ∧ g.pins.strict = true) := by decide

/-- nRESET after the first word of an STM of two, and during an UNPREDICTABLE instruction, which the model stops. -/
theorem wit_ResetPin_during : let s := fetchedAs (setM (base 0x10 0x8000) 16 1 0x1000) [0xE8810006#32]
    let b := fetchedAs (base 0x10 0x8000) [0xF0000000#32]
    let i := Instr.stm1 .al false true false 1#4 6#16
    ({ s with schedule := [.resetDuring 1] } : State).schedule = .resetDuring 1 :: [] ∧ s.dbg.inDebug = false ∧
    Completes (State.coreStep { s with wrote := [], sys := { s.sys with budget := some 1 } }) ∧
    (∀ u, State.coreStep { b with wrote := [], sys := { b.sys with budget := some 1 } } ≠ .next u) ∧
    (({ s with sys := { s.sys with budget := some 0 } } : State).debugSpeed = false ∧
      ({ s with sys := { s.sys with budget := some 0 } } : State).sys.budget = some 0) ∧
    Runs i s ∧ BlockWritable s (blockStart false true (s.reg 1#4) (regList 6#16).length) (regList 6#16).length := by
  refine ⟨by decide, by decide, completes_of_answers (f := fun t => [(t.bus.length, 1), (rdW t 0x1000, 0x1000)]) (by decide), ?_, by decide,
    by unfold Runs; decide, by unfold BlockWritable Alone Writable; decide⟩
  intro u h
  have e : (match State.coreStep { fetchedAs (base 0x10 0x8000) [0xF0000000#32] with wrote := [], sys :=
    { (fetchedAs (base 0x10 0x8000) [0xF0000000#32]).sys with budget := some 1 } } with | .next _ => true | _ => false) = false := by decide
  rw [h] at e
  cases e

theorem wit_ThumbHighAndSp : Runs (.tAddHi true false 0#3 6#3) (base 0x30 2) ∧ hiReg true 6#3 ≠ 15#4 ∧
    Runs (.tMovHi true false 0#3 7#3) (base 0x30 2) ∧ hiReg true 7#3 = 15#4 ∧ Runs (.tCmpHi false true 7#3 0#3) (base 0x30 2) ∧
    Runs (.tAddHi true false 0#3 7#3) (base 0x30 2) ∧ Runs (.tMovHi false true 0#3 0#3) (base 0x30 2) ∧
    bitT (base 0x30 2).cpsr = true := by
  unfold Runs; decide

theorem wit_ThumbLoads : let s := bytes (setM (base 0x30 0x8002) 16 1 0x1001)
    (Runs (.tLdrImm 0#5 0#3 2#3) s ∧ (0#32).extractLsb' 0 2 = 0#2 ∧ Readable s 0#32 .word false ∧ EvenFor .word 0#32) ∧
    (Runs (.tLdrReg 0#3 1#3 2#3) s ∧ (0x1001#32).extractLsb' 0 2 ≠ 0#2 ∧ s.pins.strict = true ∧ s.debugSpeed = false) ∧
    (Runs (.tLdrReg 0#3 1#3 2#3) (lenient s) ∧ (lenient s).pins.strict = false ∧ Readable (lenient s) 0x1001#32 .word false) ∧
    (Runs (.tLdrReg 0#3 1#3 2#3) (stopped s []) ∧ (stopped s []).debugSpeed = true) ∧
    (Runs (.tLdshReg 0#3 1#3 2#3) s ∧ ¬ EvenFor .half 0x1001#32) ∧ lowReg 7#3 ≠ 15#4 := by
  unfold Runs Readable EvenFor; decide

theorem wit_ThumbStores : let s := setM (base 0x30 0x8002) 16 13 0xFFFFFFFF
    (Runs (.tStrImm 31#5 0#3 2#3) s ∧ (0x7C#32).extractLsb' 0 2 = 0#2 ∧ Writable s 0x7C#32 .word false ∧ EvenFor .word 0x7C#32) ∧
    (Runs (.tStrSp 2#3 0#8) s ∧ (0xFFFFFFFF#32).extractLsb' 0 2 ≠ 0#2 ∧ s.pins.strict = true ∧ s.debugSpeed = false) ∧
    (Runs (.tStrSp 2#3 0#8) (lenient s) ∧ (lenient s).pins.strict = false ∧ Writable (lenient s) 0xFFFFFFFF#32 .word false) ∧
    (Runs (.tStrSp 2#3 0#8) (stopped s []) ∧ (stopped s []).debugSpeed = true) ∧
    (Runs (.tStrhReg 0#3 1#3 2#3) s ∧ ¬ EvenFor .half 1#32) := by
  unfold Runs Writable EvenFor; decide

theorem wit_CoprocessorAbsentOrWaiting : let i := Instr.cdp .al ⟨0#4, 0#4, 0#4, 0#4, 0#3, 0#4⟩
    offered i = true ∧ Runs i (base 0x10 0) ∧ (base 0x10 0).cop.replies = [] ∧
    (replying (base 0x10 0) .wait).cop.replies = [.wait] ∧ (replying (base 0x10 0) .stall).cop.replies = [.stall] ∧
    (replying (base 0x10 0) .absent).cop.replies = [.absent] := by
  unfold Runs; decide

theorem wit_CoprocessorAccepted : let s := replying (base 0x10 0) (.accept 0 [0xF0000000#32])
    Accepts s 0 [0xF0000000#32] [] ∧ Runs (.cdp .al ⟨0#4, 0#4, 0#4, 15#4, 0#3, 0#4⟩) s ∧
    Runs (.mcr .al ⟨0#3, 0#4, 0#4, 15#4, 0#3, 0#4⟩) s ∧ Runs (.mrc .al ⟨0#3, 0#4, 15#4, 13#4, 0#3, 0#4⟩) s ∧
    Accepts (replying (base 0x10 0) (.accept 1 [])) 1 [] [] ∧
    Runs (.mcr .al ⟨0#3, 0#4, 1#4, 15#4, 0#3, 0#4⟩) (replying (base 0x10 0) (.accept 1 [])) := by
  unfold Runs Accepts; decide

theorem wit_CoprocessorTransfers : let m : CopMem := ⟨true, true, false, true, 1#4, 0#4, 0#4, 1#8⟩
    let s := replying (setM (base 0x10 0) 16 1 0x1000) (.accept 1 [5#32, 6#32])
    let s' := aborting (replying (setM (base 0x10 0) 16 1 0x2FF8) (.accept 1 [5#32, 6#32]))
    (Accepts s 1 [5#32, 6#32] [] ∧ m.cp ≠ 14#4 ∧ Runs (.ldc .al m) s ∧ BlockReadable s (CopMem.address s m) 2) ∧
    (Runs (.stc .al m) s ∧ BlockWritable s (CopMem.address s m) 2) ∧
    BlockAborts s' (CopMem.address s' m) 2 false ∧ BlockAborts s' (CopMem.address s' m) 2 true := by
  unfold Runs Accepts BlockReadable BlockWritable BlockAborts Readable Writable Alone; decide

theorem wit_DebugCommsChannel : Runs (.mrc .al ⟨0#3, 0#4, 15#4, 14#4, 0#3, 0#4⟩) (base 0x10 0) ∧
    Runs (.mcr .al ⟨0#3, 1#4, 14#4, 14#4, 0#3, 0#4⟩) (base 0x10 0) ∧
    Runs (.mrc .al ⟨0#3, 1#4, 0#4, 14#4, 0#3, 0#4⟩) (base 0x10 0) ∧
    Runs (.mrc .al ⟨0#3, 2#4, 0#4, 14#4, 0#3, 0#4⟩) (base 0x10 0) ∧ Runs (.cdp .al ⟨0#4, 0#4, 0#4, 14#4, 0#3, 0#4⟩) (base 0x10 0) ∧
    ({ base 0x10 0 with schedule := [.commsSync true] } : State).schedule = .commsSync true :: [] := by
  unfold Runs; decide

/-- The four ways into debug state: a watchpoint, a finished single step, a request, a marked fetch; and a fetch by itself, the third
of a refill, with IEBKPT HIGH. -/
theorem wit_DebugEntry : let s := present (base 0x30 0x8000)
    let a := { s with dbg := { Dbg.clear with watch := .due } }
    let b := { s with dbg := { Dbg.clear with stepDue := true } }
    let c := { s with pins := { s.pins with edbgrq := true } }
    let d := { s with pins := { s.pins with iebkpt := true } }
    (Awake a ∧ a.dbg.watch = .due ∧ a.filled.fiqDue = false ∧ a.filled.irqDue = false) ∧ (Awake b ∧ b.dbg.watch ≠ .due ∧ b.dbg.stepDue = true) ∧
    (Awake c ∧ c.dbg.watch ≠ .due ∧ c.dbg.stepDue = false ∧ dbgrqi c = true ∧ c.pipe.busyWait = false) ∧
    (Quiet d ∧ d.filled.fetchAborts = false ∧ d.filled.marked = true) ∧ dbgrqi d = false ∧
    (let e := { fetchedAs d [0#32, 0#32] with schedule := [.fetch, .core] }; e.schedule = .fetch :: [.core] ∧ e.inReset = false ∧ e.dbg.inDebug = false ∧ e.cutOff = false ∧ e.pipe.wrapped = false ∧
      e.pipe.queue.length < 3 ∧ e.pins.dbgen = true ∧ e.pins.iebkpt = true) := by
  unfold Quiet Awake NoDebugDue; decide

theorem wit_DebugState : let s := stopped (base 0xD3 0x8000) [.debugStep 0xE3A01007#32 [], .core]
    let h := { stopped (base 0xD3 0x8000) [.debugStep 0xE1A0000D#32 []] with pipe := { Pipe.clear with userBank := true } }
    s.dbg.inDebug = true ∧ (stopped (base 0xD3 0x8000) []).schedule = [] ∧
    s.schedule = .debugStep 0xE3A01007#32 [] :: [.core] ∧ Instr.debugLegal (s.scanned 0xE3A01007#32) = true ∧
    userBankHazard (s.scanned 0xE3A01007#32) s = false ∧ Instr.debugLegal (s.scanned 0xEF000000#32) = false ∧
    (Instr.debugLegal (h.scanned 0xE1A0000D#32) = true ∧ userBankHazard (h.scanned 0xE1A0000D#32) h = true) ∧
    s.dbg.sysSpeed = false ∧
    Completes (exec (s.scanned 0xE3A01007#32)
      { s.begin with schedule := [.core], dbg := { s.dbg with ddIn := [], ddOut := [] } }) ∧
    (stopped (base 0xD3 0x8000) [.exitDebug 0x9000#32]).schedule = .exitDebug 0x9000#32 :: [] ∧
    ({ s.dbg with ddIn := [7#32] } : Dbg).ddIn = 7#32 :: [] :=
  ⟨by decide, by decide, by decide, by decide, by decide, by decide, by decide, by decide,
    completes_of_answers (f := fun t => [(getM t 19 1, 7)]) (by decide), by decide, by decide⟩

/-- STR R0, [R1] at system speed, to memory and to an aborting address. -/
theorem wit_DebugState_system : let w := 0xE5810000#32
    let s := stopped (setM (base 0xD3 0x8000) 19 1 0x1000) [.systemStep w]
    let s' := aborting (stopped (setM (base 0xD3 0x8000) 19 1 0x2000) [.systemStep w])
    s.schedule = .systemStep w :: [] ∧ s.ice.dbgCtl.getLsbD 3 = false ∧ Instr.isTransfer (s.scanned w) = true ∧
    userBankHazard (s.scanned w) s = false ∧ Instr.isTransfer (s.scanned 0xE3A01007#32) = false ∧
    Completes (exec (s.scanned w) { s.begin with schedule := [], dbg := { s.dbg with sysSpeed := true } }) ∧
    Completes (exec (s'.scanned w) { s'.begin with schedule := [], dbg := { s'.dbg with sysSpeed := true } }) :=
  ⟨by decide, by decide, by decide, by decide, by decide, completes_of_answers (f := fun t => [(rdW t 0x1000, 0)]) (by decide),
    completes_of_answers (f := fun t => [(t.pc.toNat, 0x10)]) (by decide)⟩

/-- A store to an address that watchpoint unit 1 watches, and the step of an instruction behind a watchpointed one. -/
theorem wit_WatchpointMatch :
    let u : Watch := { Watch.clear with addrValue := 0x1000#32, dataMask := 0xFFFFFFFF#32, ctlValue := 0x108#9, ctlMask := 0xF7#8 }
    let s := { present (base 0xD3 0x8000) with ice := { Ice.clear with w1 := u } }
    let x := { fetchedAs s [0xE3A01007#32] with dbg := { Dbg.clear with watch := .armed, stepArmed := true } }
    (Watch.hits u (dataProbe 0x1000#32 5#32 .word true true) false false false = true ∧ s.dbg.watch = .idle ∧
      s.pins.dbgen = true ∧ s.dbg.inDebug = false) ∧
    (s.accessed (s.event 0x1000#32 .word true 5#32 false .single) 5#32).dbg.watch = .hit ∧
    (Ready x ∧ userBankHazard x.filled.sampled.fetched x.filled.sampled = false ∧
      answers (exec x.filled.sampled.fetched x.filled.sampled.begin)
        (fun t => [(t.pipe.busyWait.toNat, 0), (if t.dbg.watch = .armed then 1 else 0, 1),
          (t.dbg.stepArmed.toNat, 1), (getM t 19 1, 7)]) = true) := by
  unfold Ready Quiet Awake NoDebugDue; decide

theorem wit_VectorCatch : let s := { present (base 0x10 0) with ice := { Ice.clear with vecCatch := 0x05#8 } }
    s.pins.dbgen = true ∧ s.dbg.inDebug = false ∧ s.ice.vecCatch.getLsbD Exc.swi.vector = true ∧
    s.ice.vecCatch.getLsbD 0 = true ∧ ({ s with inReset := true } : State).inReset = true := by decide

theorem wit_TapReset : let m := Move.tck true false
    let s := { present (base 0x10 0) with schedule := [m, m, m, m, m] }
    s.pins.ntrstLow = false ∧ s.schedule = m :: m :: m :: m :: m :: [] := by decide

/-- SCAN_N before the update of the chain number, and INTEST while scan chain 2 shifts. -/
theorem wit_TapReset_shift : let s := present (base 0x10 0)
    let a := { s with tap := { s.tap with st := .exit1Dr, ir := 2#4, scShift := 1#5 }, schedule := [.tck true false] }
    let b := { s with tap := { s.tap with st := .shiftDr, ir := 12#4, screg := 2#5 }, schedule := [.tck false true] }
    (a.pins.ntrstLow = false ∧ a.schedule = .tck true false :: [] ∧ TapInstr.ofCode a.tap.ir = .scanN ∧ a.tap.st = .exit1Dr) ∧
    (b.schedule = .tck false true :: [] ∧ TapInstr.ofCode b.tap.ir = .intest ∧ b.tap.st = .shiftDr ∧ b.tap.screg = 2#5) := by
  decide

/-- MOV R1, #7 waits behind the next scanned word; MOV PC, R1 waits for RESTART. -/
theorem wit_TapReset_idle :
    let s := stopped (present (setM (base 0xD3 0x8000) 19 1 0x9000)) [.tck false false]
    let a := { s with tap := { s.tap with st := .updateDr, ir := 12#4, screg := 1#5 },
                      dbg := { s.dbg with pending := some 0xE3A01007#32 } }
    let b := { s with tap := { s.tap with st := .updateIr, ir := 4#4 },
                      dbg := { s.dbg with pending := some 0xE1A0F001#32, restart := true } }
    (a.pins.ntrstLow = false ∧ a.schedule = .tck false false :: [] ∧ a.tap.st = .updateDr ∧ a.dbg.inDebug = true ∧
      TapInstr.ofCode a.tap.ir = .intest ∧ a.tap.screg = 1#5 ∧ a.dbg.discard = 0 ∧ a.tap.sysspeedCell = false ∧
      a.needs (a.scanned 0xE3A01007#32) = 0 ∧ Completes ((a.idled []).debugSpeedStep 0xE3A01007#32)) ∧
    (b.tap.st = .updateIr ∧ TapInstr.ofCode b.tap.ir = .restart ∧ b.dbg.restart = true ∧
      b.dbg.pending = some 0xE1A0F001#32 ∧ Instr.isTransfer (b.scanned 0xE1A0F001#32) = false ∧
      Instr.isExit (b.scanned 0xE1A0F001#32) = true ∧
      Completes ((b.idled []).restarting.debugSpeedStep 0xE1A0F001#32)) :=
  ⟨⟨by decide, by decide, by decide, by decide, by decide, by decide, by decide, by decide, by decide,
    completes_of_answers (f := fun t => [(getM t 19 1, 7)]) (by decide)⟩,
   ⟨by decide, by decide, by decide, by decide, by decide, by decide,
    completes_of_answers (f := fun t => [(t.pc.toNat, 0x9000)]) (by decide)⟩⟩

/-- A first word scanned in, a word with SYSSPEED HIGH behind a waiting LDR R0, [R1], and RESTART with a held BNE that fails. -/
theorem wit_TapReset_held :
    let s := stopped (present (base 0x400000D3 0x8000)) [.tck false false]
    let a := { s with tap := { s.tap with st := .updateDr, ir := 12#4, screg := 1#5 } }
    let b := { a with tap := { a.tap with chain1 := BitVec.ofNat 67 (2 ^ 32) },
                      dbg := { a.dbg with pending := some 0xE5910000#32 } }
    let c := { s with tap := { s.tap with st := .updateIr, ir := 4#4 },
                      dbg := { s.dbg with pending := some 0x1AFFFFF0#32, restart := true } }
    (a.pins.ntrstLow = false ∧ a.schedule = .tck false false :: [] ∧ a.tap.st = .updateDr ∧ a.dbg.inDebug = true ∧
      TapInstr.ofCode a.tap.ir = .intest ∧ a.tap.screg = 1#5 ∧ a.dbg.discard = 0 ∧ a.dbg.pending = none) ∧
    (b.schedule = .tck false false :: [] ∧ b.tap.st = .updateDr ∧ b.dbg.inDebug = true ∧
      TapInstr.ofCode b.tap.ir = .intest ∧ b.tap.screg = 1#5 ∧ b.dbg.discard = 0 ∧
      b.dbg.pending = some 0xE5910000#32 ∧ b.tap.sysspeedCell = true) ∧
    (c.schedule = .tck false false :: [] ∧ c.tap.st = .updateIr ∧ c.dbg.inDebug = true ∧
      TapInstr.ofCode c.tap.ir = .restart ∧ c.dbg.restart = true ∧ c.dbg.pending = some 0x1AFFFFF0#32 ∧
      passes (c.scanned 0x1AFFFFF0#32) c = false ∧ Instr.isTransfer (c.scanned 0x1AFFFFF0#32) = false ∧
      Instr.isExit (c.scanned 0x1AFFFFF0#32) = true ∧
      Completes ((c.idled []).restarting.debugSpeedStep 0x1AFFFFF0#32)) :=
  ⟨by decide, by decide, by decide, by decide, by decide, by decide, by decide, by decide, by decide, by decide, by decide,
    completes_of_answers (f := fun t => [(t.mode.toNat, 0x13)]) (by decide)⟩

theorem wit_HazardStops : let s := base 0xD3 0x8000
    let a := { s with pipe := { Pipe.clear with wrapped := true } }
    let b := { s with pipe := { Pipe.clear with stale := [0x8000#32] } }
    let c := putW { s with pipe := { Pipe.clear with userBank := true } } 0x8000 0xE1A0000D
    let d := putW { base 0x10 0x8000 with pipe := { Pipe.clear with userBank := true } } 0x8000 0xEF000000
    let e := putW d 0x8000 0xE7F000F0
    let f := putW d 0x8000 0xEE000100
    (s.schedule = [] ∧ s.inReset = false ∧ s.dbg.inDebug = false ∧ s.cutOff = false) ∧ a.pipe.wrapped = true ∧
    (Quiet b ∧ b.filled.fetchAborts = false ∧ b.filled.marked = false ∧ b.pc ∈ b.pipe.stale) ∧
    (Quiet c ∧ c.pc ∉ c.pipe.stale ∧ c.pipe.userBank = true ∧ c.filled.fetchAborts = false ∧ c.filled.marked = false ∧
      passes c.filled.fetched c = true ∧ ∃ r ∈ Instr.named c.filled.fetched, banked c.mode r = true) ∧
    (Quiet d ∧ passes d.filled.fetched d = true ∧ d.filled.fetched = .swi .al 0#24) ∧
    (Quiet e ∧ passes e.filled.fetched e = true ∧ e.filled.fetched = .undSpace .al 0x7F000F0#28) ∧
    (Quiet f ∧ passes f.filled.fetched f = true ∧ offered f.filled.fetched = true ∧ f.cop.replies = []) := by
  unfold Quiet Awake NoDebugDue; refine ⟨?_, ?_, ?_, ?_, ?_, ?_, ?_⟩ <;> decide

theorem wit_ByteOrder : (0xFFFFFFFE#32).getLsbD 0 = false ∧ (0xFFFFFFFC#32).extractLsb' 0 2 = 0#2 := by decide

theorem wit_ImmediateShifts : 0 < 32 ∧ 1 < 32 ∧ 31 < 32 := by decide

theorem wit_RegisterShifts : (0 = 0 ∧ 0 < 256) ∧ (0 < 1 ∧ 1 < 256) ∧ (0 < 32 ∧ 32 < 256) ∧ (0 < 33 ∧ 33 < 256) ∧ 0 < 255 := by decide

theorem wit_IceRegisters : 8#5 ∈ [8#5, 9#5, 10#5, 11#5, 16#5, 17#5, 18#5, 19#5] ∧ 20#5 ∈ [12#5, 20#5] ∧ 13#5 ∈ [13#5, 21#5] ∧
    (0 < 8 ∧ 0 ≠ 5) ∧ (7 < 8 ∧ 7 ≠ 5) ∧
    TapInstr.ofCode 12#4 = .intest ∧ (0x28FFFFFFFF#38) = 1#1 ++ (8#5 ++ 0xFFFFFFFF#32) := by decide
/-! ## One move of each other agent -/

/-- 10_state.md R77: the instruction in the prefetch queue runs, whatever its address holds now. -/
theorem test_prefetched : answers (step (fetchedAs (putW (base 0xD3 0x8000) 0x8000 0xE3A01009) [0xE3A01007#32]))
    (fun t => [(getM t 19 1, 7), (t.pc.toNat, 0x8004)]) = true := by decide

/-- 46_arm_coprocessor.md R464, R471: WAIT from an addressed coprocessor beside one that is not, GO, LAST. -/
theorem test_cpCodes : answers (step { base 0x10 0 with schedule := [.cpCodes [[0#2, 2#2], [1#2], [3#2]] [5#32]] })
    (fun t => [(if t.cop.replies = [.wait, .accept 1 [5#32]] then 1 else 0, 1)]) = true := by decide

/-- 46_arm_coprocessor.md R478: the load aborts, the CDP behind it is cancelled. -/
theorem test_lateCancel :
    answers (step (aborting (fetchedAs (setM (base 0x10 0x8000) 16 1 0x2000) [0xE5910000#32, 0xEE000100#32])))
      (fun t => [(t.lateCancel.toNat, 1), (t.cop.log.length, 1), (t.pc.toNat, 0x10), (getM t 23 14, 0x8008)]) = true := by decide

/-- 62_signals.md R882: with `cancels` an abort ends a block store. -/
theorem test_abortCancels :
    let s := aborting (setM (setM (base 0x10 0x8000) 16 1 0x2FFC) 16 2 0x55)
    answers (exec (.stm1 .al false true false 1#4 6#16) { s with sys := { s.sys with lateStores := true, cancels := true } })
      (fun t => [(rdW t 0x3000, 0), (t.bus.length, 1), (t.pc.toNat, 0x10)]) = true ∧
    answers (exec (.stm1 .al false true false 1#4 6#16) { s with sys := { s.sys with lateStores := true } })
      (fun t => [(rdW t 0x3000, 0x55), (t.bus.length, 2), (t.pc.toNat, 0x10)]) = true := by decide

/-- 10_state.md R76: IDCODE captures TAPID, whose bit 0 is 1. -/
theorem test_idcode : answers
    (step { present (base 0xD3 0) with tap := { Tap.clear with st := .captureDr }, schedule := [.tck false false] })
    (fun t => [(t.tap.idReg.toNat % 2, 1), (t.tap.tdo.toNat, 1)]) = true := by decide

/-- 61_debug.md R846, R854: SAMPLE/PRELOAD captures every signal, EXTEST the inputs alone (BIGEND is cell 162, DBGACK 138). -/
theorem test_capture : let s := { base 0xD3 0 with pins := { Pins.initial with bigend := true } }
    let e := { s with tap := { Tap.clear with ir := 0#4 } }
    let p := { s with tap := { Tap.clear with ir := 3#4 } }
    e.captureCell (fun _ => true) 138 = true ∧ p.captureCell (fun _ => true) 138 = false ∧
      e.captureCell (fun _ => false) 162 = true ∧ p.captureCell (fun _ => false) 162 = true := by decide

/-- 61_debug.md R851: under CLAMP with scan chain 0 the output DBGACK shows its cell. -/
theorem test_clamp : let s := { base 0xD3 0 with tap := { Tap.clear with cells := .clamp, cellChain := 0#5 } }
    ({ s with tap := { s.tap with chain0 := BitVec.ofNat 184 (2 ^ 137) } } : State).outputPin 138 = some true ∧
      s.outputPin 138 = some false := by decide

/-- 20_memory.md R142, D6: another master writes between the two words of an LDM; before a swap that holds the bus it waits. -/
theorem test_othersWrite :
    let s := words (setM (base 0x10 0x8000) 16 1 0x1000)
    let g := { s with sys := { s.sys with others := [[(0x1000#32, 1#8), (0x1004#32, 2#8)]] } }
    answers (exec (.ldm1 .al false true false 1#4 0xC#16) g)
      (fun t => [(getM t 16 2, 0xA00), (getM t 16 3, 0xA02), (rdW t 0x1000, 0xA01), (t.sys.others.length, 0)]) = true ∧
    answers (exec (.swp .al 1#4 2#4 0#4 3#4) g) (fun t => [(getM t 16 2, 0xA00), (rdW t 0x1004, 0xA04), (t.sys.others.length, 1)])
      = true := by decide

/-- 61_debug.md R764: after debug state DBGACK stays HIGH until the first three fetches are made. -/
theorem test_dbgackMask : answers (step (stopped (present (base 0xD3 0)) [.exitDebug 0x8000#32]))
    (fun t => [((dbgack t).toNat, 1), ((dbgack t.fetchNext.fetchNext).toNat, 1), ((dbgack t.filled).toNat, 0)]) = true := by decide

/-- 61_debug.md R754: a due watchpoint lets a pending IRQ be entered first and enters debug state at its vector. -/
theorem test_watchAfterIrq :
    let s := { present (base 0x50 0x8000) with dbg := { Dbg.clear with watch := .due } }
    let q := { s with pins := { s.pins with nirqLow := true } }
    answers (step q) (fun t => [(t.pc.toNat, 0x18), (t.dbg.inDebug.toNat, 0), (getM t 18 14, 0x8004)]) = true ∧
    answers (step s) (fun t => [(t.dbg.inDebug.toNat, 1), (t.pcOperand.toNat, 0x8014)]) = true := by decide

/-- 20_memory.md R102 to R106, 61_debug.md R760: in debug state the cells show internal cycles and no reserved DMAS. -/
theorem test_internalCycles : let s := stopped (base 0xD3 0) []
    s.signal 143 = true ∧ s.signal 169 = false ∧ s.signal 144 = true ∧ s.signal 180 = false ∧ s.signal 181 = false ∧
      ({ base 0xD3 0 with inReset := true } : State).signal 180 = false := by decide

/-- 61_debug.md R775: a word stays in DD until the next DCLK cycle. -/
theorem test_nextWord :
    let s := stopped (present (base 0xD3 0)) [.tck false false]
    let a := { s with tap := { s.tap with st := .updateDr, ir := 12#4, screg := 1#5 }, dbg := { s.dbg with ddOut := [5#32, 6#32] } }
    answers (step a) (fun t => [(t.dbg.ddOut.length, 1), (t.ddShown.toNat, 6)]) = true ∧
      a.captureChain1.dbg.ddOut.length = 2 := by decide

/-- 20_memory.md R103, R106: the first word of an LDM shows DMORE, the second DSEQ; an LDM of one register shows neither. -/
theorem test_dmore : let s := words (setM (base 0x10 0x8000) 16 1 0x1000)
    answers (exec (.ldm1 .al false true false 1#4 0xC#16) s)
      (fun t => [((lastBus t 1).more.toNat, 1), ((lastBus t 1).seq.toNat, 0), ((lastBus t 0).more.toNat, 0), ((lastBus t 0).seq.toNat, 1)])
      = true ∧
    answers (exec (.ldm1 .al false true false 1#4 4#16) s) (fun t => [((lastBus t 0).more.toNat, 0), ((lastBus t 0).seq.toNat, 0)])
      = true := by decide

/-- 46_arm_coprocessor.md R481, 20_memory.md R103: the register of an MCR is on DD, a word written. -/
theorem test_mcrShown : answers (go { setM (base 0x10 0x8000) 16 2 0x77 with cop := ⟨[.accept 0 []], []⟩ } 0xEE002410 false)
    (fun t => [(t.ddShown.toNat, 0x77), ((t.signal 35).toNat, 1), ((t.signal 145).toNat, 1), (t.dmasShown.toNat, 2)]) = true := by decide

/-- 62_signals.md R863: DDEN is LOW again in a step that writes nothing. -/
theorem test_ddenFalls : let s := fetchedAs (setM (setM (base 0x10 0x8000) 16 1 0x1000) 16 2 5) [0xE5812000#32, 0xE1A00000#32]
    answers (step s) (fun t => [((t.signal 35).toNat, 1), (t.ddShown.toNat, 5)]) = true ∧
    answers (step s) (fun t => match step t with
      | .next u => [((u.signal 35).toNat, 0), ((u.signal 145).toNat, 1), (u.ddShown.toNat, 5)]
      | _ => [(0, 1)]) = true := by decide

/-- 61_debug.md R763, R781: IA moves on with the NOP of the pass that holds an instruction for RESTART, too; a pass with SYSSPEED
LOW behind it runs that instruction at debug speed. -/
theorem test_iaMovesHeld :
    let s := stopped (base 0xD3 0) []
    let a := { s with dbg := { s.dbg with pending := some 0xE3A01007#32 }, tap := { s.tap with chain1 := BitVec.ofNat 67 (2 ^ 32) } }
    let b := { a with dbg := { a.dbg with restart := true }, tap := { a.tap with chain1 := 0 } }
    answers a.dclk (fun t => [((t.iaShown - a.iaShown).toNat, 4), (t.dbg.restart.toNat, 1)]) = true ∧
    answers b.dclk (fun t => [((t.iaShown - b.iaShown).toNat, 4), (t.dbg.restart.toNat, 0), (getM t 19 1, 7)]) = true := by decide

/-- 46_arm_coprocessor.md R488: the register of an MCR to coprocessor 15 with GO is on IA and DA, with no memory access requested. -/
theorem test_cp15OnIa : answers (go { setM (base 0x10 0x8000) 16 2 0x70 with cop := ⟨[.accept 1 []], []⟩ } 0xEE012F10 false)
    (fun t => [(t.iaShown.toNat, 0x70), ((t.signal 95).toNat, 1), (t.inCycle.1.toNat, 1), (t.inCycle.2.toNat, 0)]) = true := by decide

/-- 62_signals.md R863: a word stored at debug speed has left DD behind a system-speed load, and DDEN is LOW. -/
theorem test_ddenAfterSystem : let s := stopped (setM (base 0xD3 0) 19 1 0x1000) []
    answers (s.debugStep 0xE5812000#32 []) (fun t => [((t.signal 35).toNat, 1),
      (match t.systemStep 0xE5912000#32 with | .next u => (u.signal 35).toNat | _ => 1, 0)]) = true := by decide

/-- 60_exceptions.md R683, 44_arm_load_store_multiple_swap.md R420: a swap whose read is aborted writes nothing. -/
theorem test_swpAborted : answers (go (aborting (setM (setM (base 0x10 0x8000) 16 1 0x2000) 16 2 5)) 0xE1013092 false)
    (fun t => [(rdW t 0x2000, 0), (t.bus.length, 1), (t.pc.toNat, 0x10)]) = true := by decide

/-- 61_debug.md R746: a fetch by itself with IEBKPT HIGH marks the second instruction of a refill and not the first; with three
fetched none is made. -/
theorem test_markSecondFetch :
    let s := { present (base 0xD3 0x8000) with schedule := [.fetch] }
    let marks := fun n => answers (step (fetchedAs { s with pins := { s.pins with iebkpt := true } } (List.replicate n 0)))
    marks 1 (fun t => [((t.pipe.queue.map Slot.marked == [false, true]).toNat, 1), (t.regs.get 0 |>.toNat, 0)]) = true ∧
    marks 3 (fun t => [((t.pipe.queue.map Slot.marked == [false, false, false]).toNat, 1)]) = true := by decide

/-- 95_test_vectors.md, the refused cases of its section 9: a Thumb LDR with base 0x1002 (48_thumb_memory_branch.md R591, U11), an STR
beside it, and STMIA R1!, with R0 and R1 (R629, U2); a run that does not refuse them goes on. -/
theorem test_refusedThumb : let s := setM (base 48 0x8000) 16 1 0x1002
    refusedBy (go s 0x6848 true) .wordUnaligned = true ∧ refusedBy (go s 0x6048 true) .wordUnaligned = true ∧
    refusedBy (go s 0xC103 true) .baseInList = true ∧
    answers (go (lenient s) 0x6048 true) (fun t => [(t.pc.toNat, 0x8002), ((lastBus t 0).addr.toNat, 0x1006), (t.bus.length, 1)]) = true ∧
    answers (go (lenient s) 0xC103 true) (fun t => [(getM t 16 1, 0x100A), (t.bus.length, 2)]) = true := by decide

/-- 61_debug.md R774: STR R0, [R1] scanned in in Thumb state hands on R0 whatever R1 is. -/
theorem test_debugThumbStr : answers ((stopped (setM (setM (base 0xF3 0x8000) 19 0 0xABCD) 19 1 0x1003) []).debugStep 0x60086008#32 [])
    (fun t => [((t.dbg.ddOut.headD 0).toNat, 0xABCD), (t.dbg.ddOut.length, 1), (t.bus.length, 0)]) = true := by decide

/-- 92_eei_decisions.md D16: nRESET going LOW in debug state is refused; 61_debug.md R762: a run that does not refuse it resets. -/
theorem test_resetInDebug : let s := stopped (base 0x10 0x8000) [.reset true]
    (match step s with | .refused .resetInDebug => true | _ => false) = true ∧
    answers (step (lenient s)) (fun t => [(t.pc.toNat, 0), (t.dbg.inDebug.toNat, 0), (t.inReset.toNat, 1)]) = true := by decide

/-- 61_debug.md R787 (log 33): RESTART with BNE held and Z set leaves debug state one width on. -/
theorem test_restartFailed : let s := stopped (base 0x400000D3 0x8000) []
    answers ({ s with dbg := { s.dbg with restart := true, pending := some 0x1AFFFFF0#32 } } : State).restartCore
      (fun t => [(t.pc.toNat, 0x8004), (t.dbg.inDebug.toNat, 0)]) = true := by decide

/-- 61_debug.md R853: CLAMPZ disables the outputs only with scan chain 0 selected. -/
theorem test_clampz : let t := { Tap.clear with screg := 3#5 }
    (t.loadIr 9#4).cells = .normal ∧ ({ t with screg := 0#5 }.loadIr 9#4).cells = .clampz := by decide

/-- 61_debug.md R763: IA moves on with an instruction scanned in at debug speed. -/
theorem test_iaMoves : answers ((stopped (base 0xD3 0) []).debugSpeedStep 0xE1A00000#32)
    (fun t => [((t.iaShown - (stopped (base 0xD3 0) []).iaShown).toNat, 4)]) = true := by decide

/-- 70_reset_and_hazards.md R903: ahead of the first fetch ISEQ is LOW. -/
theorem test_firstFetch : let s := base 0xD3 0
    s.inCycle.2 = false ∧ { s with inReset := true }.inCycle.2 = false := by
  simp [State.inCycle, State.idle, base, State.reset, Pipe.clear]

/-- 61_debug.md R744: W stays clear while nTRST is LOW. -/
theorem test_commsHeldClear : answers (exec (.mcr .al ⟨0#3, 1#4, 0#4, 14#4, 0#3, 0#4⟩) (base 0xD3 0))
    (fun t => [(t.ice.wBit.toNat, 0), (t.pc.toNat, 4)]) = true := by decide

end Sys2Proof.Tests
end

section
/-!
PROOFS. 00_scope.md: the condition of an ARM instruction. Every ARM row has the shape of `armGuard`, which tests the condition
before it looks at the row.
-/

namespace Sys2Proof.Machine

/-- `exec` of a row that has a condition is the guard of that condition around a body of the row's own. One case per row: a Thumb
row has no condition, and an ARM row's meaning is by definition its guard. -/
theorem exec_eq_armGuard {i : Instr} {c : Cond} (s : State) (hc : Instr.cond i = some c) :
    ∃ body : State → Result, exec i s = armGuard c i s body := by
  cases i <;> cases hc
  all_goals
    unfold exec
    exact ⟨_, rfl⟩

/-- An ARM instruction whose condition fails only advances the PC (R21), whatever its row and its fields. -/
theorem exec_of_conditionFailed {i : Instr} {c : Cond} {s : State} (hc : Instr.cond i = some c) (hn : c ≠ .nv)
    (hf : conditionPassed c s.cpsr = false) : exec i s = .next (s.executed false).advance := by
  obtain ⟨body, hbody⟩ := exec_eq_armGuard s hc
  rw [hbody, armGuard_fails hn hf]

/-- Going on to the next instruction touches nothing outside the core's program counter and pipeline. -/
theorem sameOutside_executed_advance (s : State) (b : Bool) : SameOutside s (s.executed b).advance := by
  simp [SameOutside]

/-- Going on to the next instruction moves the PC by the width of the current state. -/
theorem fallsThrough_executed_advance (s : State) (b : Bool) : FallsThrough s (s.executed b).advance := by
  simp [FallsThrough]

/-- Settles O11: the state of `exec_of_conditionFailed` has every part the statement lists. -/
theorem failedCondition : Obligations.FailedCondition := by
  unfold Obligations.FailedCondition
  intro i c s hc hn hf
  exact ⟨(s.executed false).advance, exec_of_conditionFailed hc hn hf, by simp, by simp,
    fallsThrough_executed_advance s false, sameOutside_executed_advance s false, by simp⟩

end Sys2Proof.Machine
end
section
/-!
PROOFS. 10_state.md: the invariant of the machine. The parts of a state that it speaks of, and what each operation of the core does
to them.
-/

namespace Sys2Proof.Machine

/-! ## Reserved bits of a PSR -/

/-- The bits that D12 reserves, one by one. -/
theorem reservedMask_getLsbD : ∀ k < 32, (0x0FFFFF00#32).getLsbD k = (decide (8 ≤ k) && decide (k < 28)) := by decide

/-- The reserved bits of a PSR are zero, said bit by bit. -/
theorem psrOk_iff {p : Word} : psrOk p = true ↔ ∀ k, 8 ≤ k → k < 28 → p.getLsbD k = false := by
  rw [psrOk, beq_iff_eq]
  constructor
  · intro h k h8 h28
    have hk := congrArg (fun v : Word => v.getLsbD k) h
    simpa [reservedMask_getLsbD k (by omega), h8, h28] using hk
  · intro h
    refine BitVec.eq_of_getLsbD_eq fun k hk => ?_
    rw [BitVec.getLsbD_and, reservedMask_getLsbD k hk, BitVec.getLsbD_zero]
    by_cases hr : 8 ≤ k ∧ k < 28
    · rw [h k hr.1 hr.2, Bool.false_and]
    · rw [← Bool.decide_and, decide_eq_false hr, Bool.and_false]

/-- The reserved bits of a PSR are those of any other whose bits 27:8 agree. -/
theorem psrOk_congr {p q : Word} (h : ∀ k, 8 ≤ k → k < 28 → q.getLsbD k = p.getLsbD k) (hp : psrOk p = true) :
    psrOk q = true :=
  psrOk_iff.mpr fun k h8 h28 => by rw [h k h8 h28]; exact psrOk_iff.mp hp k h8 h28

/-- New flags touch no reserved bit. -/
theorem psrOk_withNZCV {p : Word} (n z c v : Bool) (hp : psrOk p = true) : psrOk (withNZCV p n z c v) = true :=
  psrOk_congr (fun k _ h28 => by rw [withNZCV_getLsbD, if_pos h28]) hp

/-- The bits of a PSR with another T bit. -/
theorem withT_getLsbD (p : Word) (t : Bool) (k : Nat) (hk : k < 32) :
    (withT p t).getLsbD k = if k = 5 then t else p.getLsbD k := by
  unfold withT
  rw [BitVec.getLsbD_append]
  by_cases h5 : k < 5
  · rw [if_pos h5, if_neg (by omega), BitVec.getLsbD_extractLsb', decide_eq_true h5, Bool.true_and, Nat.zero_add]
  · rw [if_neg h5, BitVec.getLsbD_append]
    by_cases h6 : k = 5
    · subst h6
      simp
    · rw [if_neg (by omega), if_neg h6, BitVec.getLsbD_extractLsb', decide_eq_true (by omega), Bool.true_and]
      congr 1
      omega

@[simp] theorem withT_bitT (p : Word) (t : Bool) : bitT (withT p t) = t := withT_getLsbD p t 5 (by decide)

@[simp] theorem withT_modeOf (p : Word) (t : Bool) : modeOf (withT p t) = modeOf p := BitVec.extractLsb'_append_eq_right

theorem psrOk_withT {p : Word} (t : Bool) (hp : psrOk p = true) : psrOk (withT p t) = true :=
  psrOk_congr (fun k h8 h28 => by rw [withT_getLsbD p t k (by omega), if_neg (by omega)]) hp

/-- The CPSR of a handler has the reserved bits of the interrupted program. -/
theorem psrOk_enterCpsr {p : Word} (e : Exc) (hp : psrOk p = true) : psrOk (enterCpsr p e) = true := by
  refine psrOk_congr (fun k h8 h28 => ?_) hp
  have hk := congrArg (fun v : BitVec 24 => v.getLsbD (k - 8)) (enterCpsr_bits p e).2.2.2
  simp only [BitVec.getLsbD_extractLsb', show 8 + (k - 8) = k by omega, show k - 8 < 24 by omega, decide_true,
    Bool.true_and] at hk
  exact hk

/-- A mask that names no reserved bit brings none in. -/
theorem psrOk_mergePsr {p v m : Word} (hm : psrOk m = true) (hp : psrOk p = true) : psrOk (mergePsr p v m) = true := by
  refine psrOk_congr (fun k h8 h28 => ?_) hp
  rw [mergePsr, BitVec.getLsbD_or, BitVec.getLsbD_and, BitVec.getLsbD_and, BitVec.getLsbD_not, psrOk_iff.mp hm k h8 h28]
  simp [show k < 32 by omega]

/-- A part of a mask without reserved bits has none. -/
theorem psrOk_and_right {x m : Word} (hm : psrOk m = true) : psrOk (x &&& m) = true :=
  psrOk_iff.mpr fun k h8 h28 => by rw [BitVec.getLsbD_and, psrOk_iff.mp hm k h8 h28, Bool.and_false]

/-- A bit that the mask does not name is kept. -/
theorem mergePsr_getLsbD_of_mask {p v m : Word} {k : Nat} (hk : k < 32) (hm : m.getLsbD k = false) :
    (mergePsr p v m).getLsbD k = p.getLsbD k := by
  rw [mergePsr, BitVec.getLsbD_or, BitVec.getLsbD_and, BitVec.getLsbD_and, BitVec.getLsbD_not, hm]
  simp [hk]

theorem Exc.legalMode (e : Exc) : legalMode e.mode = true := by cases e <;> rfl

/-! ## Addresses a program can run at -/

/-- An address that the core can run at when the PSR is `p`: even in Thumb state, a multiple of 4 in ARM state (R46). -/
def codeOk (p a : Word) : Prop := a.toNat % (if bitT p then 2 else 4) = 0

theorem pcOk_iff (s : State) : pcOk s = true ↔ codeOk s.cpsr s.pc := by
  have h2 : s.pc.getLsbD 0 = decide (s.pc.toNat % 2 = 1) := by
    rw [BitVec.getLsbD, Nat.testBit_zero]
  have h4 : s.pc.extractLsb' 0 2 = 0#2 ↔ s.pc.toNat % 4 = 0 := by
    rw [← BitVec.toNat_inj, BitVec.extractLsb'_toNat]
    simp
  unfold pcOk codeOk
  cases bitT s.cpsr
  · simp [h4]
  · rw [if_pos rfl, if_pos rfl, h2]
    simp

theorem codeOk_of_four {p a : Word} (h : a.toNat % 4 = 0) : codeOk p a := by
  unfold codeOk
  split <;> omega

theorem codeOk_of_two {p a : Word} (ht : bitT p = true) (h : a.toNat % 2 = 0) : codeOk p a := by
  rw [codeOk, if_pos ht]
  exact h

/-- Only the T bit decides where a program can run. -/
theorem codeOk.congr {p q a : Word} (h : codeOk p a) (ht : bitT q = bitT p) : codeOk q a := by
  rw [codeOk, ht]
  exact h

/-- A distance that the state's alignment divides leads from one such address to another. -/
theorem codeOk.add {p a d : Word} (h : codeOk p a) (hd : codeOk p d) : codeOk p (a + d) := by
  unfold codeOk at *
  rw [BitVec.toNat_add]
  by_cases ht : bitT p = true
  · simp only [if_pos ht] at h hd ⊢
    omega
  · simp only [if_neg ht] at h hd ⊢
    omega

/-- Clearing bits 1:0 makes an address of either state. -/
theorem codeOk_mask4 (p a : Word) : codeOk p (a &&& 0xFFFFFFFC#32) :=
  codeOk_of_four (by rw [toNat_mask4]; omega)

theorem toNat_mask2 (a : Word) : (a &&& 0xFFFFFFFE#32).toNat % 2 = 0 := by
  rw [BitVec.toNat_and]
  exact (Nat.and_mod_two_pow (n := 1)).trans (Nat.and_zero _)

/-- Clearing bit 0 makes an address of Thumb state. -/
theorem codeOk_mask2 {p : Word} (ht : bitT p = true) (a : Word) : codeOk p (a &&& 0xFFFFFFFE#32) :=
  codeOk_of_two ht (toNat_mask2 a)

/-- An address with bits 1:0 clear. -/
theorem codeOk_of_low {a : Word} (p : Word) (h : a.extractLsb' 0 2 = 0#2) : codeOk p a := by
  refine codeOk_of_four ?_
  rw [← BitVec.toNat_inj, BitVec.extractLsb'_toNat] at h
  simpa using h

theorem codeOk_returnTarget (p v : Word) : codeOk p (returnTarget p v) := by
  unfold returnTarget
  split
  · next ht => exact codeOk_mask2 ht v
  · exact codeOk_mask4 p v

theorem codeOk_codeAddress (s : State) (a : Word) : codeOk s.cpsr (s.codeAddress a) := by
  unfold State.codeAddress
  split
  · next ht => exact codeOk_mask2 ht a
  · exact codeOk_mask4 _ a

theorem codeOk_width (s : State) : codeOk s.cpsr s.width := by
  unfold codeOk State.width
  split <;> decide

theorem codeOk_pcOperand {s : State} (h : codeOk s.cpsr s.pc) : codeOk s.cpsr s.pcOperand := by
  unfold State.pcOperand
  split <;> exact h.add (codeOk_of_four (by decide))

theorem codeOk_debugPc {s : State} (h : codeOk s.cpsr s.pc) : codeOk s.cpsr s.debugPc := by
  unfold State.debugPc
  split
  · next ht => exact h.add (codeOk_of_two ht (by decide))
  · exact h.add (codeOk_of_four (by decide))

theorem codeOk_vectorBase (s : State) (p : Word) : codeOk p s.vectorBase := by
  unfold State.vectorBase
  split <;> exact codeOk_of_four (by decide)

theorem codeOk_vector (p : Word) (e : Exc) : codeOk p (BitVec.ofNat 32 (4 * e.vector)) := by
  cases e <;> exact codeOk_of_four (by decide)

/-- A branch offset in words. -/
theorem codeOk_armOffset (p : Word) (off : BitVec 24) : codeOk p (armOffset off) := by
  refine codeOk_of_low p ?_
  unfold armOffset
  refine BitVec.eq_of_getLsbD_eq fun k hk => ?_
  rw [BitVec.getLsbD_extractLsb', BitVec.getLsbD_signExtend, BitVec.getLsbD_append]
  simp [hk, show k < 32 by omega, show k < 26 by omega]

/-- A branch offset in halfwords. -/
theorem codeOk_halfOffset {p : Word} (ht : bitT p = true) {n : Nat} (off : BitVec n) :
    codeOk p ((off ++ 0#1).signExtend 32) := by
  refine codeOk_of_two ht ?_
  have h : ((off ++ 0#1).signExtend 32).getLsbD 0 = false := by
    rw [BitVec.getLsbD_signExtend, BitVec.getLsbD_append]
    simp
  rw [BitVec.getLsbD, Nat.testBit_zero] at h
  simpa using h

/-! ## The two halves of the invariant -/

/-- What the invariant says of the PC and the CPSR. -/
structure CoreOk (p a : Word) : Prop where
  aligned : codeOk p a
  mode : legalMode (modeOf p) = true
  psr : psrOk p = true

/-- What the invariant says of everything else. -/
structure RestOk (s : State) : Prop where
  mem : Memory.wf s.mem = true
  imem : Memory.wf s.imem = true
  spsr : ∀ k : Fin 5, psrOk (s.spsr.get k) = true
  w0 : watchOk s.ice.w0 = true
  w1 : watchOk s.ice.w1 = true
  queue : s.pipe.queue.length ≤ 3
  tapid : s.pins.tapid.getLsbD 0 = true

theorem inv_iff {s : State} : Inv s ↔ CoreOk s.cpsr s.pc ∧ RestOk s := by
  unfold Inv
  rw [pcOk_iff]
  constructor
  · rintro ⟨h1, h2, h3, h4, h5, h6, h7, h8, h9, h10⟩
    exact ⟨⟨h3, h4, h5⟩, ⟨h1, h2, h6, h7, h8, h9, h10⟩⟩
  · rintro ⟨⟨h3, h4, h5⟩, ⟨h1, h2, h6, h7, h8, h9, h10⟩⟩
    exact ⟨h1, h2, h3, h4, h5, h6, h7, h8, h9, h10⟩

theorem Inv.core {s : State} (h : Inv s) : CoreOk s.cpsr s.pc := (inv_iff.mp h).1

theorem Inv.rest {s : State} (h : Inv s) : RestOk s := (inv_iff.mp h).2

/-- What the invariant says of a PSR and the PC holds for another PSR with the same T, mode and reserved bits. -/
theorem CoreOk.withNZCV {p a : Word} (h : CoreOk p a) (n z c v : Bool) : CoreOk (withNZCV p n z c v) a where
  aligned := h.aligned.congr (withNZCV_bitT ..)
  mode := by rw [withNZCV_modeOf]; exact h.mode
  psr := psrOk_withNZCV n z c v h.psr

/-- The CPSR and PC of a handler. -/
theorem CoreOk.enter {p a : Word} (h : CoreOk p a) (s : State) (e : Exc) :
    CoreOk (enterCpsr p e) (s.vectorBase + BitVec.ofNat 32 (4 * e.vector)) where
  aligned := (codeOk_vectorBase s _).add (codeOk_vector _ e)
  mode := by rw [enterCpsr_mode]; exact e.legalMode
  psr := psrOk_enterCpsr e h.psr

/-- A state that agrees with `s` in what the second half of the invariant reads, or has fetched less ahead. -/
theorem RestOk.of_eq {s t : State} (h : RestOk s) (hmem : t.mem = s.mem := by simp) (himem : t.imem = s.imem := by simp)
    (hspsr : t.spsr = s.spsr := by simp) (hw0 : t.ice.w0.ctlMask = s.ice.w0.ctlMask := by simp)
    (hw1 : t.ice.w1.ctlMask = s.ice.w1.ctlMask := by simp)
    (hq : t.pipe.queue.length ≤ s.pipe.queue.length := by simp) (hid : t.pins.tapid = s.pins.tapid := by simp) :
    RestOk t where
  mem := by rw [hmem]; exact h.mem
  imem := by rw [himem]; exact h.imem
  spsr := by rw [hspsr]; exact h.spsr
  w0 := by rw [watchOk, hw0]; exact h.w0
  w1 := by rw [watchOk, hw1]; exact h.w1
  queue := hq.trans h.queue
  tapid := by rw [hid]; exact h.tapid

/-- The invariant reads the second half, the CPSR and the PC only. -/
theorem Inv.of_rest {s t : State} (h : Inv s) (hr : RestOk t) (hc : t.cpsr = s.cpsr := by simp) (hp : t.pc = s.pc := by simp) :
    Inv t := by
  refine inv_iff.mpr ⟨?_, hr⟩
  rw [hc, hp]
  exact h.core

/-- A jump with a new CPSR. -/
theorem RestOk.goTo {s : State} (h : RestOk s) {p a : Word} (hc : CoreOk p a) : Inv ((s.setCpsr p).branchTo a) :=
  inv_iff.mpr ⟨hc, h.of_eq (hq := Nat.zero_le _)⟩

/-- Reset leaves the invariant (10_state.md R91 to R97). -/
theorem reset_inv : Inv State.reset := by
  refine inv_iff.mpr ⟨⟨codeOk_of_four rfl, rfl, rfl⟩, ⟨rfl, rfl, fun k => ?_, rfl, rfl, Nat.zero_le _, rfl⟩⟩
  rw [show State.reset.spsr.get k = 0#32 by simp [State.reset, Vector.get_eq_getElem]]
  rfl

/-- Settles O7. -/
theorem invAtReset : Obligations.InvAtReset := reset_inv

/-- Settles O6: every part is a field of the literal `State.reset`. -/
theorem resetState : Obligations.ResetState := by
  unfold Obligations.ResetState
  decide

end Sys2Proof.Machine
end
section
/-!
PROOFS. 10_state.md: every operation of the core keeps the invariant.
-/

namespace Sys2Proof.Machine

/-! ## Registers and outputs -/

section
variable {s : State}

theorem Inv.setBankReg (h : Inv s) (m : BitVec 5) (r : Reg) (v : Word) : Inv (s.setBankReg m r v) := h.of_rest h.rest.of_eq

theorem Inv.setReg (h : Inv s) (r : Reg) (v : Word) : Inv (s.setReg r v) := h.of_rest h.rest.of_eq

theorem Inv.writeBack (h : Inv s) (wb : Option (Reg × Word)) : Inv (s.writeBack wb) := h.of_rest h.rest.of_eq

theorem Inv.drawn (h : Inv s) : Inv s.drawn := h.of_rest h.rest.of_eq

theorem Inv.executed (h : Inv s) (b : Bool) : Inv (s.executed b) := h.of_rest h.rest.of_eq

theorem Inv.begin (h : Inv s) : Inv s.begin := h.of_rest (h.rest.of_eq (hq := Nat.le_refl _))

theorem Inv.noExec (h : Inv s) : Inv s.noExec := h.of_rest h.rest.of_eq

theorem Inv.cancelNext (h : Inv s) : Inv s.cancelNext := h.of_rest h.rest.of_eq

theorem Inv.afterUserBank (h : Inv s) : Inv s.afterUserBank := h.of_rest (h.rest.of_eq (hq := Nat.le_refl _))

theorem Inv.afterStep (h : Inv s) : Inv s.afterStep := h.of_rest h.rest.of_eq

theorem Inv.sampled (h : Inv s) : Inv s.sampled := by
  obtain ⟨n, hn⟩ := s.sampled_eq
  rw [hn]
  exact h.of_rest (h.rest.of_eq (hid := rfl))

/-! ## Status registers and the PC -/

theorem Inv.setCpsr (h : Inv s) {p : Word} (hc : CoreOk p s.pc) : Inv (s.setCpsr p) := inv_iff.mpr ⟨hc, h.rest.of_eq⟩

theorem Inv.setNZCV (h : Inv s) (n z c v : Bool) : Inv (s.setCpsr (withNZCV s.cpsr n z c v)) :=
  h.setCpsr (h.core.withNZCV n z c v)

theorem Inv.setFlags (h : Inv s) (o : AluOut) : Inv (s.setFlags o) := h.setNZCV ..

theorem RestOk.setSpsr (h : RestOk s) (m : BitVec 5) {p : Word} (hp : psrOk p = true) : RestOk (s.setSpsr m p) where
  mem := by rw [State.setSpsr_mem]; exact h.mem
  imem := by rw [State.setSpsr_imem]; exact h.imem
  spsr := by
    intro k
    unfold State.setSpsr
    split
    · rw [Vector.get_eq_getElem, Vector.getElem_set]
      split
      · exact hp
      · exact h.spsr k
    · exact h.spsr k
  w0 := by rw [State.setSpsr_ice]; exact h.w0
  w1 := by rw [State.setSpsr_ice]; exact h.w1
  queue := by rw [State.setSpsr_pipe]; exact h.queue
  tapid := by rw [State.setSpsr_pins]; exact h.tapid

theorem Inv.setSpsr (h : Inv s) (m : BitVec 5) {p : Word} (hp : psrOk p = true) : Inv (s.setSpsr m p) :=
  h.of_rest (h.rest.setSpsr m hp)

theorem Inv.spsrOf (h : Inv s) {m : BitVec 5} {p : Word} (hp : s.spsrOf m = some p) : psrOk p = true := by
  obtain ⟨k, -, rfl⟩ := Option.map_eq_some_iff.mp hp
  exact h.rest.spsr k

theorem Inv.advance (h : Inv s) : Inv s.advance :=
  inv_iff.mpr ⟨⟨h.core.aligned.add (codeOk_width s), h.core.mode, h.core.psr⟩,
    h.rest.of_eq (hq := by simp [State.advance])⟩

theorem Inv.branchTo (h : Inv s) {a : Word} (ha : codeOk s.cpsr a) : Inv (s.branchTo a) :=
  inv_iff.mpr ⟨⟨ha, h.core.mode, h.core.psr⟩, h.rest.of_eq (hq := Nat.zero_le _)⟩

theorem Inv.goTo (h : Inv s) {p a : Word} (hc : CoreOk p a) : Inv ((s.setCpsr p).branchTo a) := h.rest.goTo hc

/-- Exception entry: the CPSR it leaves in the SPSR is the interrupted program's. -/
theorem Inv.raise (h : Inv s) (e : Exc) (link : Word) : Inv (s.raise e link) := by
  have hr : RestOk ((s.setBankReg e.mode 14#4 link).setSpsr e.mode s.cpsr) :=
    (h.setBankReg e.mode 14#4 link).rest.setSpsr e.mode h.core.psr
  have hj := hr.goTo (h.core.enter s e)
  exact hj.of_rest (hj.rest.of_eq (hspsr := rfl) (hq := Nat.le_refl _)) rfl rfl

theorem Inv.takeDataAbort (h : Inv s) : Inv s.takeDataAbort := h.cancelNext.raise ..

/-! ## Data accesses -/

theorem Watch.see_ctlMask (u : Watch) (pins : Pins) (p : Probe) (ext chain range : Bool) :
    (Watch.see u pins p ext chain range).ctlMask = u.ctlMask := by
  unfold Watch.see
  split <;> rfl

/-- The comparators change no mask. -/
theorem Ice.see_ctlMask (ice : Ice) (pins : Pins) (p : Probe) :
    (Ice.see ice pins p).w0.ctlMask = ice.w0.ctlMask ∧ (Ice.see ice pins p).w1.ctlMask = ice.w1.ctlMask :=
  ⟨Watch.see_ctlMask .., Watch.see_ctlMask ..⟩

theorem Inv.accessed (h : Inv s) (e : BusEvent) (w : Word) : Inv (s.accessed e w) :=
  h.of_rest (h.rest.of_eq (hw0 := Watch.see_ctlMask ..) (hw1 := Watch.see_ctlMask ..))

theorem Inv.showed (h : Inv s) (e : BusEvent) : Inv (s.showed e) := h.of_rest h.rest.of_eq

theorem Inv.spend (h : Inv s) : Inv s.spend := h.of_rest h.rest.of_eq

theorem Inv.ddin (h : Inv s) (a : Word) (rule : Option MemRule) : Inv (s.ddin a rule).2 := by
  unfold State.ddin
  split
  · exact h.drawn
  · exact h

/-- Canonical memory written at addresses that exist. -/
theorem RestOk.ofMem (h : RestOk s) {m : List Host.Cell} (hm : Memory.wf m = true) : RestOk { s with mem := m } where
  mem := hm
  imem := h.imem
  spsr := h.spsr
  w0 := h.w0
  w1 := h.w1
  queue := h.queue
  tapid := h.tapid

theorem Inv.ofMem (h : Inv s) {m : List Host.Cell} (hm : Memory.wf m = true) : Inv { s with mem := m } :=
  h.of_rest (h.rest.ofMem hm) rfl rfl

theorem Inv.storeMem (h : Inv s) (big : Bool) (size : Size) (a v : Word) : Inv (s.storeMem (storeBytes big size a v)) :=
  have hm := h.ofMem (State.storeMem_wf (big := big) (size := size) (a := a) (v := v) h.rest.mem)
  hm.of_rest (hm.rest.of_eq (hq := Nat.le_refl _))

theorem Inv.othersAct (h : Inv s) : Inv s.othersAct := by
  unfold State.othersAct
  split
  · exact h
  · next ws rest _ =>
    have hb : ∀ x ∈ ws.map fun x => (x.1.toNat, x.2), x.1 < 2 ^ 32 := by
      intro x hx
      obtain ⟨y, -, rfl⟩ := List.mem_map.mp hx
      exact y.1.isLt
    have hm := h.ofMem (Memory.writeAll_wf hb h.rest.mem)
    exact hm.of_rest (hm.rest.of_eq (hq := Nat.le_refl _))

theorem Inv.swapGap (h : Inv s) : Inv s.swapGap := by
  unfold State.swapGap
  split
  · exact h
  · exact h.othersAct

theorem Inv.between {α : Type} (h : Inv s) (rest : List α) : Inv (s.between rest) := by
  unfold State.between
  split
  · exact h
  · exact h.othersAct

theorem Inv.readData (h : Inv s) (a : Word) (size : Size) (user : Bool) (b : Beat) :
    Inv (s.readData a size user b).2 := by
  unfold State.readData
  split
  · exact h.of_rest h.rest.of_eq
  · split
    · exact h.drawn
    · exact (h.ddin a _).spend.accessed ..

theorem Inv.writeData (h : Inv s) (a : Word) (size : Size) (v : Word) (user : Bool) (b : Beat) (late : Bool) :
    Inv (s.writeData a size v user b late).2 := by
  unfold State.writeData
  split
  · exact h.of_rest h.rest.of_eq
  · split
    · exact h
    · exact iteInduction (motive := Inv) (fun _ => (h.spend.accessed ..).storeMem ..) (fun _ => h.spend.accessed ..)

/-! ## Runs of words -/

@[simp] theorem State.readData_cpsr (s : State) (a : Word) (size : Size) (user : Bool) (b : Beat) :
    (s.readData a size user b).2.cpsr = s.cpsr := by
  unfold State.readData State.ddin
  split
  · rfl
  · split
    · rfl
    · dsimp only
      split <;> rfl

@[simp] theorem State.between_cpsr {α : Type} (s : State) (rest : List α) : (s.between rest).cpsr = s.cpsr := by
  unfold State.between
  split <;> simp

/-- Reading a run of words keeps the invariant and the CPSR. -/
theorem Inv.readRun : ∀ (seq : Bool) (as : List Word) {s : State}, Inv s →
    Inv (Machine.readRun seq as s).2 ∧ (Machine.readRun seq as s).2.cpsr = s.cpsr
  | _, [], _, h => ⟨h, rfl⟩
  | seq, a :: rest, s, h => by
    have hr := h.readData a .word false ⟨false, seq, !rest.isEmpty⟩
    unfold Machine.readRun
    dsimp only
    split
    · exact ⟨hr, by simp⟩
    · obtain ⟨hi, hc⟩ := Inv.readRun true rest (hr.between rest)
      exact ⟨hi, hc.trans (by simp)⟩

theorem Inv.writeRun : ∀ (seq late : Bool) (xs : List (Word × Word)) {s : State}, Inv s →
    Inv (Machine.writeRun seq late xs s).2
  | _, _, [], _, h => h
  | seq, late, (a, v) :: rest, s, h => by
    have hw := h.writeData a .word v false ⟨false, seq, !rest.isEmpty⟩ late
    unfold Machine.writeRun
    dsimp only
    split
    · exact hw
    · exact Inv.writeRun true _ rest (hw.between rest)

theorem Inv.writeWords (h : Inv s) (xs : List (Word × Word)) : Inv (Machine.writeWords xs s).2 := Inv.writeRun false false xs h

theorem loadRegs_cpsr (m : BitVec 5) (xs : List (Reg × Word)) (s : State) : (loadRegs m xs s).cpsr = s.cpsr := by
  rw [loadRegs_eq]

theorem Inv.loadRegs (h : Inv s) (m : BitVec 5) (xs : List (Reg × Word)) : Inv (Machine.loadRegs m xs s) := by
  rw [loadRegs_eq]
  exact h.of_rest h.rest.of_eq

theorem Inv.freeRegs (h : Inv s) (m : BitVec 5) (base : Fin 30) (rl : List Reg) : Inv (Machine.freeRegs m base rl s) := by
  obtain ⟨v, w, n, he⟩ := (freeRegs_spec m base rl s).1
  rw [he]
  exact h.of_rest h.rest.of_eq

/-! ## Coprocessors -/

theorem Inv.passed (h : Inv s) : Inv s.passed := h.of_rest h.rest.of_eq

theorem Inv.answered (h : Inv s) (l : List CpReply) : Inv (s.answered l) := h.of_rest h.rest.of_eq

theorem Inv.waiting (h : Inv s) : Inv s.waiting := h.of_rest (h.rest.of_eq (hq := Nat.le_refl _))

theorem Inv.tell (h : Inv s) (e : CpEvent) : Inv (s.tell e) := h.of_rest h.rest.of_eq

theorem Inv.tellWords : ∀ (ws : List (Option Word)) {s : State}, Inv s → Inv (State.tellWords ws s)
  | some w :: rest, _, h => Inv.tellWords rest (h.tell (.loaded w))
  | none :: _, _, h => h
  | [], _, h => h

theorem Inv.commsPut (h : Inv s) (v : Word) : Inv (s.commsPut v) := h.of_rest (h.rest.of_eq (hw0 := rfl) (hw1 := rfl))

theorem Inv.commsTaken (h : Inv s) : Inv s.commsTaken := h.of_rest (h.rest.of_eq (hw0 := rfl) (hw1 := rfl))

theorem Inv.copTransfer (h : Inv s) (onDa : Option Word) (write : Bool) (v : Word) : Inv (s.copTransfer onDa write v) :=
  h.of_rest h.rest.of_eq

theorem Inv.movedToArm (h : Inv s) (rd : Reg) (v : Word) : Inv (s.movedToArm rd v) := by
  unfold State.movedToArm
  split
  · exact h.setNZCV ..
  · exact h.setReg ..

end

end Sys2Proof.Machine
end
section
/-!
PROOFS. 10_state.md: every instruction keeps the invariant, one lemma per shared body, and then the dispatch.
-/

namespace Sys2Proof.Machine

/-- A next state, where the result is one, meets the invariant. -/
structure NextInv (r : Result) : Prop where
  inv : ∀ t, r = .next t → Inv t

theorem NextInv.next {t : State} (h : Inv t) : NextInv (.next t) where
  inv := by
    intro u hu
    cases hu
    exact h

theorem NextInv.refused (r : Refusal) : NextInv (.refused r) where
  inv := by
    intro t h
    cases h

theorem NextInv.fault (f : Fault) : NextInv (.fault f) where
  inv := by
    intro t h
    cases h

section
variable {s : State}

/-! ## The guards -/

/-- The failed condition only advances the PC; so the body decides. -/
theorem NextInv.armGuard {c : Cond} {i : Instr} {body : State → Result} (h : Inv s)
    (hb : NextInv (body (s.executed true))) : NextInv (armGuard c i s body) where
  inv t ht := by
    rcases armGuard_next ht with rfl | ht
    · exact (h.executed false).advance
    · exact hb.inv t ht

theorem NextInv.thumbGuard {i : Instr} {body : State → Result} (hb : NextInv (body (s.executed true))) :
    NextInv (thumbGuard i s body) where
  inv t ht := hb.inv t (thumbGuard_next ht)

/-! ## Data processing and multiplies -/

theorem State.exceptionReturn_inv (h : Inv s) (v : Word) : NextInv (s.exceptionReturn v) := by
  unfold State.exceptionReturn
  split
  · exact .refused _
  · next p hp =>
    split
    · next hl => exact .next (h.goTo ⟨codeOk_returnTarget p v, hl, h.spsrOf hp⟩)
    · exact .refused _

theorem dataOp_inv (h : Inv s) (op : DpOp) (f : Bool) (rd : Reg) (a : Word) (b : Shifted) :
    NextInv (dataOp op f rd a b s) := by
  unfold dataOp
  dsimp only
  split
  · split
    · exact State.exceptionReturn_inv h _
    · split
      · next hlow => exact .next (h.branchTo (codeOk_of_low _ hlow))
      · exact .refused _
  · split
    · exact .next ((h.setReg ..).setFlags _).advance
    · exact .next (h.setReg ..).advance

theorem compareOp_inv (h : Inv s) (op : DpOp) (a : Word) (b : Shifted) : NextInv (compareOp op a b s) :=
  .next (h.setFlags _).advance

/-- A register and then the flags: what every multiply does. -/
theorem Inv.setReg_setNZCV (h : Inv s) (r : Reg) (x : Word) (n z c v : Bool) :
    Inv ((s.setReg r x).setCpsr (withNZCV s.cpsr n z c v)) :=
  (h.setReg r x).setCpsr (by rw [State.setReg_pc]; exact h.core.withNZCV ..)

theorem mulOp_inv (h : Inv s) (f : Bool) (rd : Reg) (r : Word) : NextInv (mulOp f rd r s) := by
  unfold mulOp
  split
  · exact .next (h.setReg_setNZCV ..).drawn.advance
  · exact .next (h.setReg ..).advance

theorem mulLongOp_inv (h : Inv s) (f : Bool) (rdHi rdLo : Reg) (p : BitVec 64) :
    NextInv (mulLongOp f rdHi rdLo p s) := by
  unfold mulLongOp
  dsimp only
  split
  · have hc : CoreOk (mulLongFlags s p) ((s.setReg rdHi (p.extractLsb' 32 32)).setReg rdLo (p.extractLsb' 0 32)).pc := by
      rw [State.setReg_pc, State.setReg_pc]
      exact h.core.withNZCV ..
    exact .next (((h.setReg ..).setReg ..).setCpsr hc).drawn.drawn.advance
  · exact .next ((h.setReg ..).setReg ..).advance

theorem thumbAlu_inv (h : Inv s) (rd : LowReg) (o : AluOut) : NextInv (thumbAlu rd o s) :=
  .next ((h.setReg ..).setFlags _).advance

theorem thumbFlags_inv (h : Inv s) (o : AluOut) : NextInv (thumbFlags o s) := .next (h.setFlags _).advance

theorem thumbWrite_inv (h : Inv s) (ht : bitT s.cpsr = true) (rd : Reg) (v : Word) : NextInv (thumbWrite rd v s) := by
  unfold thumbWrite
  split
  · exact .next (h.branchTo (codeOk_mask2 ht v))
  · exact .next (h.setReg ..).advance

/-! ## Status registers -/

theorem readStatus_inv (h : Inv s) (r : Bool) (rd : Reg) : NextInv (readStatus r rd s) := by
  unfold readStatus
  split
  · split
    · exact .next (h.setReg ..).advance
    · exact .refused _
  · exact .next (h.setReg ..).advance

/-- The masks of MSR name no reserved bit (R323). -/
theorem msrMasks_psrOk : psrOk userMask = true ∧ psrOk (userMask ||| privMask) = true ∧
    psrOk (userMask ||| privMask ||| stateMask) = true := by decide

/-- MSR to the CPSR never writes T: no mask it uses has that bit (R326). -/
theorem msr_bitT (p v x m : Word) (hm : bitT m = false) : bitT (mergePsr p v (x &&& m)) = bitT p :=
  mergePsr_getLsbD_of_mask (by decide) (by rw [BitVec.getLsbD_and, show m.getLsbD 5 = false from hm, Bool.and_false])

/-- In User mode MSR writes the flags only. -/
theorem msr_user_modeOf (p v x : Word) : modeOf (mergePsr p v (x &&& userMask)) = modeOf p := by
  have hm : ∀ k < 5, userMask.getLsbD k = false := by decide
  unfold modeOf
  refine BitVec.eq_of_getLsbD_eq fun k hk => ?_
  rw [BitVec.getLsbD_extractLsb', BitVec.getLsbD_extractLsb', Nat.zero_add,
    mergePsr_getLsbD_of_mask (by omega) (by rw [BitVec.getLsbD_and, hm k hk, Bool.and_false])]

theorem writeStatus_inv (h : Inv s) (r : Bool) (fields : BitVec 4) (v : Word) : NextInv (writeStatus r fields v s) := by
  obtain ⟨hu, hup, hups⟩ := msrMasks_psrOk
  unfold writeStatus
  dsimp only
  split
  · split
    · exact .refused _
    · next p hp => exact .next (h.setSpsr _ (psrOk_mergePsr (psrOk_and_right hups) (h.spsrOf hp))).advance
  · split
    · exact .refused _
    · split
      · split
        · next hl =>
          exact .next (h.setCpsr ⟨h.core.aligned.congr (msr_bitT _ _ _ _ (by decide)), hl,
            psrOk_mergePsr (psrOk_and_right hup) h.core.psr⟩).advance
        · exact .refused _
      · exact .next (h.setCpsr ⟨h.core.aligned.congr (msr_bitT _ _ _ _ (by decide)),
          by rw [msr_user_modeOf]; exact h.core.mode, psrOk_mergePsr (psrOk_and_right hu) h.core.psr⟩).advance

/-! ## Single transfers -/

theorem loadOp_inv (h : Inv s) (k : LoadKind) (a : Word) (user : Bool) (wb : Option (Reg × Word)) (rd : Reg) :
    NextInv (loadOp k a user wb rd s) := by
  have hr := h.readData a k.size user .single
  unfold loadOp
  split
  · exact .refused _
  split
  · exact .refused _
  generalize s.readData a k.size user .single = x at hr ⊢
  rcases x with ⟨_ | w, t⟩
  · exact .next (hr.takeDataAbort)
  · dsimp only
    split
    · exact .next ((hr.writeBack wb).branchTo (codeOk_mask4 _ _))
    · exact .next ((hr.writeBack wb).setReg ..).advance

theorem storeOp_inv (h : Inv s) (size : Size) (a v : Word) (user : Bool) (wb : Option (Reg × Word)) :
    NextInv (storeOp size a v user wb s) := by
  have hw := h.writeData a size v user .single false
  unfold storeOp
  split
  · exact .refused _
  generalize s.writeData a size v user .single false = x at hw ⊢
  rcases x with ⟨_ | _, t⟩
  · exact .next (hw.writeBack wb).advance
  · exact .next (hw.takeDataAbort)

theorem thumbLoadWord_inv (h : Inv s) (a : Word) (rd : LowReg) : NextInv (thumbLoadWord a rd s) := by
  have hr := h.readData a .word false .single
  unfold thumbLoadWord
  split
  · exact .refused _
  generalize s.readData a .word false .single = x at hr ⊢
  rcases x with ⟨_ | w, t⟩
  · exact .next (hr.takeDataAbort)
  · dsimp only
    split
    · exact .next (hr.setReg ..).advance
    · exact .next (hr.drawn.setReg ..).advance

theorem thumbStoreWord_inv (h : Inv s) (a : Word) (rd : LowReg) : NextInv (thumbStoreWord a rd s) := by
  unfold thumbStoreWord
  split
  · exact .refused _
  split
  · exact storeOp_inv h ..
  · exact storeOp_inv h.drawn ..

theorem swapOp_inv (h : Inv s) (k : LoadKind) (rn rd rm : Reg) : NextInv (swapOp k rn rd rm s) := by
  have hr := h.readData (s.reg rn) k.size false .locked
  unfold swapOp
  dsimp only
  generalize s.readData (s.reg rn) k.size false .locked = x at hr ⊢
  rcases x with ⟨_ | w, t⟩
  · exact .next (hr.takeDataAbort)
  · have hw := hr.swapGap.writeData (s.reg rn) k.size (s.reg rm) false .locked false
    dsimp only
    generalize t.swapGap.writeData (s.reg rn) k.size (s.reg rm) false .locked false = x at hw ⊢
    rcases x with ⟨_ | _, u⟩
    · exact .next (hw.setReg ..).advance
    · exact .next (hw.takeDataAbort)

/-! ## Block transfers -/

/-- A block load goes on with a state of the same CPSR. -/
theorem blockLoad_inv (h : Inv s) (m : BitVec 5) (rl : List Reg) (start : Word) (rn : Reg) (wb : Option Word)
    {fin : Word → State → Result} (hfin : ∀ w u, Inv u → u.cpsr = s.cpsr → NextInv (fin w u)) :
    NextInv (blockLoad m rl start rn wb s fin) := by
  obtain ⟨hx, hc⟩ : Inv (readWords (blockAddrs start rl.length) s).2 ∧ _ := h.readRun false _
  unfold blockLoad
  dsimp only
  split
  · exact .next (hx.freeRegs ..).takeDataAbort
  · exact hfin _ _ ((hx.loadRegs ..).writeBack _) (by rw [State.writeBack_cpsr, loadRegs_cpsr]; exact hc)

theorem blockStore_inv (h : Inv s) (start : Word) (vals : List Word) (rn : Reg) (wb : Option Word) :
    NextInv (blockStore start vals rn wb s) := by
  have hw := h.writeWords ((blockAddrs start vals.length).zip vals)
  unfold blockStore
  generalize writeWords ((blockAddrs start vals.length).zip vals) s = x at hw ⊢
  rcases x with ⟨_ | _, t⟩
  · exact .next (hw.writeBack _).advance
  · exact .next (hw.takeDataAbort)

theorem ldmPlain_inv (h : Inv s) (p u w : Bool) (rn : Reg) (list : BitVec 16) : NextInv (ldmPlain p u w rn list s) := by
  unfold ldmPlain
  dsimp only
  refine blockLoad_inv h _ _ _ _ _ fun v t ht _ => ?_
  split
  · exact .next (ht.branchTo (codeOk_mask4 _ _))
  · exact .next ht.advance

theorem ldmReturn_inv (h : Inv s) (p u w : Bool) (rn : Reg) (list : BitVec 15) :
    NextInv (ldmReturn p u w rn list s) := by
  unfold ldmReturn
  dsimp only
  split
  · exact .refused _
  · exact blockLoad_inv h _ _ _ _ _ fun v t ht _ => State.exceptionReturn_inv ht v

theorem ldmUser_inv (h : Inv s) (p u : Bool) (rn : Reg) (list : BitVec 15) : NextInv (ldmUser p u rn list s) := by
  unfold ldmUser
  dsimp only
  split
  · exact blockLoad_inv h _ _ _ _ _ fun _ t ht _ => .next ht.advance.afterUserBank
  · exact .refused _

theorem stmUser_inv (h : Inv s) (p u : Bool) (rn : Reg) (list : BitVec 16) : NextInv (stmUser p u rn list s) := by
  unfold stmUser
  dsimp only
  split
  · generalize (blockAddrs _ _).zip _ = xs
    have hw := h.writeWords xs
    generalize writeWords xs s = x at hw ⊢
    rcases x with ⟨_ | _, t⟩
    · exact .next hw.advance.afterUserBank
    · exact .next (hw.takeDataAbort)
  · exact .refused _

theorem popOp_inv (h : Inv s) (ht : bitT s.cpsr = true) (pc : Bool) (list : BitVec 8) : NextInv (popOp pc list s) := by
  unfold popOp
  dsimp only
  refine blockLoad_inv h _ _ _ _ _ fun v t hi hc => ?_
  split
  · exact .next (hi.branchTo (codeOk_mask2 (by rw [hc]; exact ht) v))
  · exact .next hi.advance

theorem stmiaOp_inv (h : Inv s) (rb : LowReg) (list : BitVec 8) : NextInv (stmiaOp rb list s) := by
  unfold stmiaOp
  dsimp only
  split
  · exact .refused _
  · exact blockStore_inv h.drawn ..

theorem ldmiaOp_inv (h : Inv s) (rb : LowReg) (list : BitVec 8) : NextInv (ldmiaOp rb list s) :=
  blockLoad_inv h _ _ _ _ _ fun _ _ ht _ => .next ht.advance

/-! ## Branches and exceptions -/

theorem branchOp_inv (h : Inv s) (off : BitVec 24) : NextInv (branchOp off s) :=
  .next (h.branchTo ((codeOk_pcOperand h.core.aligned).add (codeOk_armOffset _ off)))

theorem branchLinkOp_inv (h : Inv s) (off : BitVec 24) : NextInv (branchLinkOp off s) := by
  refine .next ((h.setReg ..).branchTo ?_)
  rw [State.setReg_cpsr]
  exact (codeOk_pcOperand h.core.aligned).add (codeOk_armOffset _ off)

/-- BX: what is not refused has bit 1 clear where it leads to ARM state. -/
theorem codeOk_exchange {v : Word} (p : Word) (h : v.extractLsb' 0 2 ≠ 0b10#2) :
    codeOk (withT p (v.getLsbD 0)) (v &&& 0xFFFFFFFE#32) := by
  cases h0 : v.getLsbD 0
  · refine codeOk_of_low _ (BitVec.eq_of_getLsbD_eq fun k hk => ?_)
    rw [BitVec.getLsbD_extractLsb', BitVec.getLsbD_and]
    have h1 : v.getLsbD 1 = false := by
      by_contra hv
      refine h (BitVec.eq_of_getLsbD_eq fun j hj => ?_)
      obtain rfl | rfl : j = 0 ∨ j = 1 := by omega
      · simpa using h0
      · simpa using hv
    obtain rfl | rfl : k = 0 ∨ k = 1 := by omega
    · simp
    · simpa using h1
  · exact codeOk_mask2 (withT_bitT ..) v

theorem exchangeOp_inv (h : Inv s) (v : Word) : NextInv (exchangeOp v s) := by
  unfold exchangeOp
  split
  · exact .refused _
  · next hv =>
    exact .next (h.goTo ⟨codeOk_exchange _ hv, by rw [withT_modeOf]; exact h.core.mode, psrOk_withT _ h.core.psr⟩)

theorem thumbBranchOp_inv (h : Inv s) (ht : bitT s.cpsr = true) {n : Nat} (off : BitVec n) :
    NextInv (thumbBranchOp off s) :=
  .next (h.branchTo ((codeOk_pcOperand h.core.aligned).add (codeOk_halfOffset ht off)))

theorem thumbCondBranchOp_inv (h : Inv s) (ht : bitT s.cpsr = true) (c : Cond) (off : BitVec 8) :
    NextInv (thumbCondBranchOp c off s) := by
  unfold thumbCondBranchOp
  split
  · exact thumbBranchOp_inv h ht off
  · exact .next (h.executed false).advance

theorem blSecondOp_inv (h : Inv s) (ht : bitT s.cpsr = true) (off : BitVec 11) : NextInv (blSecondOp off s) :=
  .next ((h.setReg ..).branchTo (codeOk_mask2 (by rw [State.setReg_cpsr]; exact ht) _))

theorem undefinedOp_inv (h : Inv s) : NextInv (undefinedOp s) := .next (h.raise ..)

theorem swiOp_inv (h : Inv s) : NextInv (swiOp s) := .next (h.raise ..)

/-! ## Coprocessors -/

/-- Every answer but an acceptance ends in a trap or in a busy-wait. -/
theorem handshake_inv (h : Inv s) (i : Instr) {go : Nat → List Word → State → Result}
    (hgo : ∀ n data t, Inv t → NextInv (go n data t)) : NextInv (handshake i s go) := by
  unfold handshake
  split
  · exact .next (h.passed.raise ..)
  · exact .next ((h.passed.answered _).raise ..)
  · exact .next (h.passed.answered _).waiting
  · exact .next h.passed.waiting
  · exact hgo _ _ _ ((h.passed.answered _).tell _)

theorem cdpOp_inv (h : Inv s) (i : Instr) (o : CopData) : NextInv (cdpOp i o s) := by
  unfold cdpOp
  split
  · exact .refused _
  · exact handshake_inv h i fun _ _ _ ht => .next ht.advance

theorem mcrOp_inv (h : Inv s) (i : Instr) (o : CopReg) : NextInv (mcrOp i o s) := by
  unfold mcrOp
  split
  · split
    · exact .next ((h.passed.commsPut _).copTransfer ..).advance
    · exact .refused _
  · exact handshake_inv h i fun _ _ _ ht => .next ((ht.tell _).copTransfer ..).advance

theorem mrcOp_inv (h : Inv s) (i : Instr) (o : CopReg) : NextInv (mrcOp i o s) := by
  unfold mrcOp
  split
  · split
    · exact .next ((h.passed.drawn.copTransfer ..).movedToArm ..).advance
    · exact .next ((h.passed.commsTaken.copTransfer ..).movedToArm ..).advance
    · exact .refused _
  · refine handshake_inv h i fun _ data _ ht => ?_
    cases data
    · exact .next ((ht.drawn.copTransfer ..).movedToArm ..).advance
    · exact .next ((ht.copTransfer ..).movedToArm ..).advance

theorem ldcOp_inv (h : Inv s) (i : Instr) (m : CopMem) : NextInv (ldcOp i m s) := by
  unfold ldcOp
  split
  · exact .refused _
  · refine handshake_inv h i fun n _ t ht => ?_
    obtain ⟨hx, -⟩ : Inv (readWords (blockAddrs (CopMem.address s m) (n + 1)) t).2 ∧ _ := ht.readRun false _
    dsimp only
    split
    · exact .next (hx.tellWords _).takeDataAbort
    · exact .next ((hx.tellWords _).writeBack _).advance

theorem stcOp_inv (h : Inv s) (i : Instr) (m : CopMem) : NextInv (stcOp i m s) := by
  unfold stcOp
  split
  · exact .refused _
  · refine handshake_inv h i fun n data t ht => ?_
    have hd : Inv { t with draws := t.draws + (n + 1) } := ht.of_rest ht.rest.of_eq
    have hw := hd.writeWords ((blockAddrs (CopMem.address s m) (n + 1)).zip (stcWords t.draws (n + 1) data))
    dsimp only
    generalize writeWords ((blockAddrs _ _).zip _) _ = x at hw ⊢
    rcases x with ⟨_ | _, u⟩
    · exact .next (hw.writeBack _).advance
    · exact .next (hw.takeDataAbort)

/-! ## The dispatch -/

/-- Every instruction keeps the invariant; a Thumb instruction is one that runs in Thumb state. -/
theorem exec_inv {i : Instr} (h : Inv s) (ht : Instr.cond i = none → bitT s.cpsr = true) : NextInv (exec i s) := by
  have hx := h.executed true
  cases i <;> unfold exec
  case mul | mla =>
    exact .armGuard h (mulOp_inv hx ..)
  case umull | umlal | smull | smlal =>
    exact .armGuard h (mulLongOp_inv hx ..)
  case undArith | undLsA | undLsB | undCtlReg | undCtlImm | undSpace | undCop =>
    exact .armGuard h (undefinedOp_inv hx)
  case swp | swpb =>
    exact .armGuard h (swapOp_inv hx ..)
  case strh | strtImm | strbtImm | strImm | strbImm | strtReg | strbtReg | strReg | strbReg =>
    exact .armGuard h (storeOp_inv hx ..)
  case ldrh | ldrsb | ldrsh | ldrtImm | ldrbtImm | ldrImm | ldrbImm | ldrtReg | ldrbtReg | ldrReg | ldrbReg =>
    exact .armGuard h (loadOp_inv hx ..)
  case mrs =>
    exact .armGuard h (readStatus_inv hx ..)
  case msrReg | msrImm =>
    exact .armGuard h (writeStatus_inv hx ..)
  case bx =>
    exact .armGuard h (exchangeOp_inv hx _)
  case andShiftImm | eorShiftImm | subShiftImm | rsbShiftImm | addShiftImm | adcShiftImm | sbcShiftImm | rscShiftImm
      | orrShiftImm | movShiftImm | bicShiftImm | mvnShiftImm | andShiftReg | eorShiftReg | subShiftReg | rsbShiftReg
      | addShiftReg | adcShiftReg | sbcShiftReg | rscShiftReg | orrShiftReg | movShiftReg | bicShiftReg | mvnShiftReg | andImm
      | eorImm | subImm | rsbImm | addImm | adcImm | sbcImm | rscImm | orrImm | movImm | bicImm | mvnImm =>
    exact .armGuard h (dataOp_inv hx ..)
  case tstShiftImm | teqShiftImm | cmpShiftImm | cmnShiftImm | tstShiftReg | teqShiftReg | cmpShiftReg | cmnShiftReg | tstImm
      | teqImm | cmpImm | cmnImm =>
    exact .armGuard h (compareOp_inv hx ..)
  case stm1 =>
    exact .armGuard h (blockStore_inv hx ..)
  case ldm1 =>
    exact .armGuard h (ldmPlain_inv hx ..)
  case stm2 =>
    exact .armGuard h (stmUser_inv hx ..)
  case ldm2 =>
    exact .armGuard h (ldmUser_inv hx ..)
  case ldm3 =>
    exact .armGuard h (ldmReturn_inv hx ..)
  case b =>
    exact .armGuard h (branchOp_inv hx _)
  case bl =>
    exact .armGuard h (branchLinkOp_inv hx _)
  case stc =>
    exact .armGuard h (stcOp_inv hx ..)
  case ldc =>
    exact .armGuard h (ldcOp_inv hx ..)
  case cdp =>
    exact .armGuard h (cdpOp_inv hx ..)
  case mcr =>
    exact .armGuard h (mcrOp_inv hx ..)
  case mrc =>
    exact .armGuard h (mrcOp_inv hx ..)
  case swi =>
    exact .armGuard h (swiOp_inv hx)
  case tLslImm | tLsrImm | tAsrImm | tAddReg | tSubReg | tAddImm3 | tSubImm3 | tMovImm | tAddImm | tSubImm | tAnd | tEor
      | tLsl | tLsr | tAsr | tAdc | tSbc | tRor | tNeg | tOrr | tBic | tMvn =>
    exact .thumbGuard (thumbAlu_inv hx ..)
  case tCmpImm | tTst | tCmp | tCmn | tCmpHi =>
    exact .thumbGuard (thumbFlags_inv hx _)
  case tMul =>
    exact .thumbGuard (mulOp_inv hx ..)
  case tAddHi | tMovHi | tAddPc | tAddSp | tIncSp | tDecSp =>
    exact .thumbGuard (thumbWrite_inv hx (ht rfl) ..)
  case tBx =>
    exact .thumbGuard (exchangeOp_inv hx _)
  case tLdrPc | tLdrReg | tLdrImm | tLdrSp =>
    exact .thumbGuard (thumbLoadWord_inv hx ..)
  case tStrReg | tStrImm | tStrSp =>
    exact .thumbGuard (thumbStoreWord_inv hx ..)
  case tStrhReg | tStrbReg | tStrbImm | tStrhImm =>
    exact .thumbGuard (storeOp_inv hx ..)
  case tLdsbReg | tLdrhReg | tLdrbReg | tLdshReg | tLdrbImm | tLdrhImm =>
    exact .thumbGuard (loadOp_inv hx ..)
  case tPush =>
    exact .thumbGuard (blockStore_inv hx ..)
  case tPop =>
    exact .thumbGuard (popOp_inv hx (ht rfl) ..)
  case tUnd1011 | tUndDE | tUnd11101 =>
    exact .thumbGuard (undefinedOp_inv hx)
  case tStmia =>
    exact .thumbGuard (stmiaOp_inv hx ..)
  case tLdmia =>
    exact .thumbGuard (ldmiaOp_inv hx ..)
  case tSwi =>
    exact .thumbGuard (swiOp_inv hx)
  case tBCond =>
    exact .thumbGuard (thumbCondBranchOp_inv hx (ht rfl) ..)
  case tB =>
    exact .thumbGuard (thumbBranchOp_inv hx (ht rfl) _)
  case tBl1 =>
    exact .thumbGuard (.next (hx.setReg ..).advance)
  case tBl2 =>
    exact .thumbGuard (blSecondOp_inv hx (ht rfl) _)

end

end Sys2Proof.Machine
end
section
/-!
PROOFS. 10_state.md: every step of the machine keeps the invariant: the core's cycle, debug state, the TAP controller and the other
agents.
-/

namespace Sys2Proof.Machine

/-! ## What nRESET leaves, field by field -/

section
variable (s u : State) (written : List Nat)

/-- The CPSR that nRESET leaves: Supervisor mode, ARM state, I and F set, the flags open (R91). -/
theorem State.takeReset_cpsr : ∃ n z c v, (s.takeReset u written).cpsr = withNZCV 0x000000D3#32 n z c v := ⟨_, _, _, _, rfl⟩

theorem State.takeReset_regs : ∃ n, (s.takeReset u written).regs = s.resetRegs n written := ⟨_, rfl⟩

theorem State.takeReset_spsr : ∃ n, (s.takeReset u written).spsr = s.resetSpsrs n written := ⟨_, rfl⟩

@[simp] theorem State.takeReset_pc : (s.takeReset u written).pc = s.vectorBase := rfl
@[simp] theorem State.takeReset_mem : (s.takeReset u written).mem = u.mem := by unfold State.takeReset; rfl
@[simp] theorem State.takeReset_imem : (s.takeReset u written).imem = u.imem := by unfold State.takeReset; rfl
@[simp] theorem State.takeReset_bus : (s.takeReset u written).bus = u.bus := by unfold State.takeReset; rfl
@[simp] theorem State.takeReset_ice : (s.takeReset u written).ice = u.ice := by unfold State.takeReset; rfl
@[simp] theorem State.takeReset_tap : (s.takeReset u written).tap = u.tap := by unfold State.takeReset; rfl
@[simp] theorem State.takeReset_schedule : (s.takeReset u written).schedule = u.schedule := by unfold State.takeReset; rfl
@[simp] theorem State.takeReset_pins : (s.takeReset u written).pins = s.pins.forgotten := rfl
@[simp] theorem State.takeReset_pipe :
    (s.takeReset u written).pipe = { Pipe.clear with caught := s.pins.dbgen && s.ice.vecCatch.getLsbD 0 } := rfl
@[simp] theorem State.takeReset_budget : (s.takeReset u written).sys.budget = none := rfl
@[simp] theorem State.takeReset_dbg : (s.takeReset u written).dbg = s.dbg.fresh := rfl
@[simp] theorem State.takeReset_instrExec : (s.takeReset u written).instrExec = false := rfl
@[simp] theorem State.takeReset_pass : (s.takeReset u written).pass = false := rfl
@[simp] theorem State.takeReset_log :
    (s.takeReset u written).cop.log = u.cop.log ++ if u.pipe.busyWait then [.abandoned] else [] := by
  unfold State.takeReset
  dsimp only
  split
  · rfl
  · rw [List.append_nil]

end

/-! ## The decoder gives an instruction of the state the core is in -/

/-- Every ARM word is an instruction with a condition. -/
theorem decodeArm_cond (w : Word) : ∃ c, Instr.cond (decodeArm w) = some c := by
  refine ⟨Cond.ofBits (fld w 28 4), ?_⟩
  unfold decodeArm
  dsimp only
  split
  · unfold decodeGroup0 decodeSwap decodeMul decodeMode3 decodeControl decodeDpShiftReg decodeDpShiftImm
    (repeat' split) <;> rfl
  · unfold decodeGroup1 decodeDpImm
    (repeat' split) <;> rfl
  · unfold decodeSingle
    (repeat' split) <;> rfl
  · unfold decodeSingle
    (repeat' split) <;> rfl
  · unfold decodeBlock
    (repeat' split) <;> rfl
  · split <;> rfl
  · unfold decodeGroup6
    (repeat' split) <;> rfl
  · unfold decodeGroup7
    (repeat' split) <;> rfl

/-- What the decoder makes of a fetched or scanned word is a Thumb instruction in Thumb state only. -/
theorem thumb_of_decodeCode {s : State} {a id : Word} (h : Instr.cond (decodeCode (s.codeOf a id)) = none) :
    bitT s.cpsr = true := by
  by_contra ht
  obtain ⟨c, hc⟩ := decodeArm_cond id
  rw [State.codeOf, if_neg ht, decodeCode, hc] at h
  cases h

section
variable {s : State}

/-! ## The core's cycle -/

theorem Inv.fetchNext (h : Inv s) (hq : s.pipe.queue.length < 3) : Inv s.fetchNext := by
  obtain ⟨hw0, hw1⟩ := Ice.see_ctlMask s.ice s.pins s.fetchSeen
  refine h.of_rest ⟨h.rest.mem, h.rest.imem, h.rest.spsr, ?_, ?_, ?_, h.rest.tapid⟩
  · rw [watchOk, State.fetchNext_ice, hw0]
    exact h.rest.w0
  · rw [watchOk, State.fetchNext_ice, hw1]
    exact h.rest.w1
  · rw [show s.fetchNext = State.fill 1 s from rfl, State.fill_length]
    exact hq

theorem Inv.fill : ∀ (n : Nat) {s : State}, Inv s → s.pipe.queue.length + n ≤ 3 → Inv (State.fill n s)
  | 0, _, h, _ => h
  | n + 1, s, h, hn => by
    refine Inv.fill n (h.fetchNext (by omega)) ?_
    rw [show s.fetchNext = State.fill 1 s from rfl, State.fill_length]
    omega

theorem Inv.filled (h : Inv s) : Inv s.filled :=
  h.fill _ (by have := h.rest.queue; omega)

theorem NextInv.finish {r : Result} (h : NextInv r) : NextInv (finish r) := by
  cases r with
  | next t => exact .next (h.inv t rfl).afterStep
  | fault f => exact .fault f
  | refused r => exact .refused r

theorem run_inv (h : Inv s) : NextInv (s.run s.fetched) := by
  unfold State.run
  split
  · exact .fault _
  · exact (exec_inv h.begin fun hc => thumb_of_decodeCode (s := s) hc).finish

theorem Inv.enterDebug (h : Inv s) (c : DebugCause) : Inv (s.enterDebug c) := by
  refine inv_iff.mpr ⟨?_, h.rest.of_eq (hq := Nat.zero_le _) (hid := rfl)⟩
  rw [State.enterDebug_cpsr]
  exact ⟨codeOk_debugPc h.core.aligned, h.core.mode, h.core.psr⟩

theorem execute_inv (h : Inv s) : NextInv s.execute := by
  unfold State.execute
  split
  · exact run_inv h
  split
  · exact (NextInv.next (h.noExec.raise ..)).finish
  split
  · exact .next (h.enterDebug _)
  split
  · exact .fault _
  · exact run_inv h

theorem boundary_inv (h : Inv s) : NextInv s.boundary := by
  unfold State.boundary
  split
  · exact .next (h.enterDebug _)
  split
  · exact .next (h.enterDebug _)
  split
  · exact .next (h.enterDebug _)
  split
  · exact (NextInv.next (h.sampled.noExec.raise ..)).finish
  split
  · exact (NextInv.next (h.sampled.noExec.raise ..)).finish
  · exact execute_inv h.sampled

theorem coreStep_inv (h : Inv s) : NextInv s.coreStep := by
  unfold State.coreStep
  split
  · exact .next h
  split
  · exact .refused _
  split
  · exact .fault _
  · exact boundary_inv h.filled

theorem fetchStep_inv (h : Inv s) : NextInv s.fetchStep := by
  unfold State.fetchStep
  split
  · exact .next h
  split
  · exact .refused _
  split
  · exact .next h
  · next hq =>
    simp only [Bool.or_eq_true, decide_eq_true_eq, not_or] at hq
    exact .next (h.fetchNext (by omega))

/-! ## nRESET -/

/-- SPSRs after nRESET: an open one has its reserved bits clear (R94). -/
theorem resetSpsrs_psrOk (h : RestOk s) (n : Nat) (written : List Nat) (k : Fin 5) :
    psrOk ((s.resetSpsrs n written).get k) = true := by
  rw [State.resetSpsrs, Vector.get_eq_getElem, Vector.getElem_ofFn]
  split
  · exact psrOk_and_right (by decide)
  · exact h.spsr k

/-- nRESET takes memory and the macrocell from the step it strikes and the rest from before it. -/
theorem RestOk.takeReset (h : RestOk s) {u : State} (hu : RestOk u) (written : List Nat) : RestOk (s.takeReset u written) where
  mem := by rw [State.takeReset_mem]; exact hu.mem
  imem := by rw [State.takeReset_imem]; exact hu.imem
  spsr k := by
    obtain ⟨n, hn⟩ := s.takeReset_spsr u written
    rw [hn]
    exact resetSpsrs_psrOk h n written k
  w0 := by rw [State.takeReset_ice]; exact hu.w0
  w1 := by rw [State.takeReset_ice]; exact hu.w1
  queue := by rw [State.takeReset_pipe]; exact Nat.zero_le _
  tapid := by rw [State.takeReset_pins]; exact h.tapid

theorem Inv.takeReset (h : Inv s) {u : State} (hu : Inv u) (written : List Nat) : Inv (s.takeReset u written) := by
  obtain ⟨n, z, c, v, hc⟩ := s.takeReset_cpsr u written
  refine inv_iff.mpr ⟨?_, h.rest.takeReset hu.rest written⟩
  rw [hc, State.takeReset_pc]
  exact CoreOk.withNZCV ⟨codeOk_vectorBase s _, by decide, by decide⟩ n z c v

/-- The level of nRESET is no part of the invariant. -/
theorem Inv.held (h : Inv s) (low : Bool) : Inv { s with inReset := low } := h.of_rest h.rest.of_eq

theorem Inv.resetDuring (h : Inv s) (k : Nat) : Inv (s.resetDuring k) := by
  have hs : Inv { s with wrote := [], sys := { s.sys with budget := some k } } := h.of_rest h.rest.of_eq
  unfold State.resetDuring
  split
  · next t ht => exact (h.takeReset ((coreStep_inv hs).inv t ht) _).held true
  · exact (h.takeReset h _).held true
  · exact (h.takeReset h _).held true

theorem struckBy_inv {t : State} (ht : Inv t) : NextInv (s.struckBy t) := by
  unfold State.struckBy
  split
  · exact .refused _
  · exact .next ht

theorem Inv.releaseReset (h : Inv s) : Inv s.releaseReset := by
  unfold State.releaseReset
  split
  · exact h.of_rest (h.rest.of_eq (hq := Nat.zero_le _) (hid := rfl))
  · exact h

/-! ## Debug state -/

theorem debugSpeedStep_inv (h : Inv s) (id : Word) : NextInv (s.debugSpeedStep id) := by
  unfold State.debugSpeedStep
  dsimp only
  split
  · exact .refused _
  split
  · exact .fault _
  · exact exec_inv h.begin fun hc => thumb_of_decodeCode (s := s) hc

/-- The debug logic is no part of the invariant. -/
theorem Inv.withDbg (h : Inv s) (d : Dbg) : Inv { s with dbg := d } := h.of_rest h.rest.of_eq

/-- Nor are the TAP controller and its registers. -/
theorem Inv.withTap (h : Inv s) (t : Tap) : Inv { s with tap := t } := h.of_rest h.rest.of_eq

theorem debugStep_inv (h : Inv s) (id : Word) (ddIn : List Word) : NextInv (s.debugStep id ddIn) := by
  unfold State.debugStep
  split
  · have hd := debugSpeedStep_inv (h.withDbg { s.dbg with ddIn := ddIn, ddOut := [] }) id
    split
    · next t ht => exact .next ((hd.inv t ht).withDbg _)
    · exact .fault _
    · exact .refused _
  · exact .refused _

/-- Five instructions on from where the step began are four on from where it ended: the PC stays aligned even where the step has
changed the T bit. -/
theorem codeOk_systemStep {s t : State} (ht : codeOk t.cpsr t.pc) (hp : t.pc = s.pc + s.width) :
    codeOk t.cpsr (s.pc + 5#32 * s.width) := by
  have he : s.pc + 5#32 * s.width = t.pc + 4#32 * s.width := by
    rw [hp, BitVec.add_assoc]
    unfold State.width
    split <;> rfl
  rw [he]
  refine ht.add (codeOk_of_four ?_)
  unfold State.width
  split <;> rfl

theorem Inv.withPc (h : Inv s) {a : Word} (ha : codeOk s.cpsr a) : Inv { s with pc := a } :=
  inv_iff.mpr ⟨⟨ha, h.core.mode, h.core.psr⟩, h.rest.of_eq⟩

theorem Inv.afterSystemStep {t : State} (ht : Inv t) : Inv (s.afterSystemStep t) := by
  have hu (d : Dbg) : Inv { t with port := t.port.retained, dbg := d } := ht.of_rest ht.rest.of_eq
  unfold State.afterSystemStep
  dsimp only
  split
  · refine ((hu _).setBankReg abtMode 14#4 _).drawn.branchTo ?_
    rw [State.drawn_cpsr, State.setBankReg_cpsr]
    exact codeOk_debugPc (hu _).core.aligned
  split
  · next hp => exact (hu _).withPc (codeOk_systemStep ht.core.aligned hp)
  · exact hu _

theorem systemStep_inv (h : Inv s) (id : Word) : NextInv (s.systemStep id) := by
  have he := exec_inv (i := s.scanned id) (h.begin.withDbg { s.dbg with sysSpeed := true })
    fun hc => thumb_of_decodeCode (s := s) hc
  unfold State.systemStep
  split
  · exact .refused _
  split
  · exact .refused _
  split
  · exact .refused _
  split
  · exact .fault _
  split
  · next t ht => exact .next ((he.inv t ht).afterSystemStep)
  · exact .fault _
  · exact .refused _

/-- Out of debug state to an address the core can run at. -/
theorem Inv.leaveDebug_to (h : Inv s) (a : Word) : Inv { s.leaveDebug with pc := s.codeAddress a } :=
  inv_iff.mpr ⟨⟨codeOk_codeAddress s a, h.core.mode, h.core.psr⟩, h.rest.of_eq (hq := Nat.zero_le _) (hid := rfl)⟩

theorem exitDebug_inv (h : Inv s) (target : Word) : NextInv (s.exitDebug target) := by
  unfold State.exitDebug
  split
  · exact .next (h.leaveDebug_to target)
  · exact .refused _

/-! ## The EmbeddedICE macrocell -/

theorem Watch.writeReg_ok {u : Watch} (h : watchOk u = true) (k : Nat) (v : Word) : watchOk (Watch.writeReg u k v) = true := by
  unfold Watch.writeReg
  split
  case h_6 => simp [watchOk]
  all_goals exact h

theorem Watch.trst_ok (u : Watch) (n : Nat) : watchOk (Watch.trst u n) = true := by simp [watchOk, Watch.trst]

/-- A write of the macrocell's registers keeps bit 3 of both control masks clear (R65). -/
theorem Ice.write_ok {ice : Ice} (h0 : watchOk ice.w0 = true) (h1 : watchOk ice.w1 = true) (a : BitVec 5) (v : Word) :
    watchOk (Ice.write ice a v).w0 = true ∧ watchOk (Ice.write ice a v).w1 = true := by
  unfold Ice.write
  split <;> simp [h0, h1, Watch.writeReg_ok]

theorem Inv.withIce (h : Inv s) {ice : Ice} (h0 : watchOk ice.w0 = true) (h1 : watchOk ice.w1 = true) :
    Inv { s with ice := ice } :=
  h.of_rest ⟨h.rest.mem, h.rest.imem, h.rest.spsr, h0, h1, h.rest.queue, h.rest.tapid⟩

theorem Inv.iceWrite (h : Inv s) (a : BitVec 5) (v : Word) : Inv (s.iceWrite a v) :=
  have ⟨h0, h1⟩ := Ice.write_ok h.rest.w0 h.rest.w1 a v
  h.withIce h0 h1

theorem Inv.iceRead (h : Inv s) (a : BitVec 5) : Inv (s.iceRead a) := by
  unfold State.iceRead iceReadEffect
  split <;> exact h.of_rest (h.rest.of_eq (hw0 := rfl) (hw1 := rfl))

theorem Inv.commsSync (h : Inv s) (toDebugger : Bool) : Inv { s with ice := s.ice.sync toDebugger } := by
  cases toDebugger <;> exact h.withIce h.rest.w0 h.rest.w1

theorem Inv.viaTap (h : Inv s) {t : State} (ht : Inv t) : Inv (s.viaTap t) := by
  unfold State.viaTap
  split
  · exact h
  · exact ht

theorem Inv.trst (h : Inv s) (low : Bool) : Inv (s.trst low) := by
  unfold State.trst
  split
  · exact h.of_rest ⟨h.rest.mem, h.rest.imem, h.rest.spsr, Watch.trst_ok .., Watch.trst_ok .., h.rest.queue, h.rest.tapid⟩
  · exact h.of_rest h.rest.of_eq

/-! ## The serial path -/

theorem Inv.captureDr (h : Inv s) : Inv s.captureDr := by
  unfold State.captureDr State.captureChain0 State.captureChain1
  split
  case h_6 | h_7 | h_8 => exact h
  all_goals exact h.of_rest h.rest.of_eq

theorem Inv.updateDr (h : Inv s) : Inv s.updateDr := by
  unfold State.updateDr
  split
  · exact h.withTap _
  · dsimp only
    split
    · exact h.iceWrite ..
    · exact h.iceRead _
  · exact h

theorem Inv.tckRise (h : Inv s) (tdi : Bool) : Inv (s.tckRise tdi) := by
  unfold State.tckRise
  split
  · exact h.captureDr
  · exact h.withTap _
  · exact h.withTap _
  · exact h.withTap _
  · exact h

theorem Inv.tckFall (h : Inv s) : Inv s.tckFall := by
  unfold State.tckFall
  split
  · exact h.withTap _
  · exact h.withTap _
  · exact h.updateDr
  · exact (h.withTap _).drawn
  · exact h.withTap _
  · exact h

theorem Inv.queueScanned {t : State} (ht : Inv t) (id : Word) : Inv (s.queueScanned t id) := by
  unfold State.queueScanned
  split <;> exact ht.withDbg _

theorem dclk_inv (h : Inv s) : NextInv s.dclk := by
  have hn : Inv s.nextWord := h.withDbg _
  unfold State.dclk
  extract_lets s' id
  split
  · exact .next (hn.withDbg _)
  split
  · exact .next (hn.withDbg _)
  split
  · exact .next (hn.withDbg _)
  extract_lets need s1
  have h1 : Inv s1 := iteInduction (motive := Inv) (fun _ => hn) fun _ => hn.withDbg _
  split
  · exact .next (h1.withDbg _)
  split
  · next t ht => exact .next (((debugSpeedStep_inv h1 _).inv t ht).queueScanned id)
  · exact .fault _
  · exact .refused _

theorem restartCore_inv (h : Inv s) : NextInv s.restartCore := by
  unfold State.restartCore
  split
  · extract_lets d s0
    have h0 : Inv s0 := h.withDbg _
    split
    · exact systemStep_inv h0 _
    split
    · have hd := debugSpeedStep_inv h0
      split
      · next t ht => exact .next (((hd _).inv t ht).leaveDebug_to t.pc)
      · exact .fault _
      · exact .refused _
    · exact .refused _
  · exact .next h

theorem runTestIdle_inv (h : Inv s) : NextInv s.runTestIdle := by
  unfold State.runTestIdle
  split
  · split
    · exact dclk_inv h
    · exact .refused _
  · exact .refused _
  · have ht := h.withTap { s.tap with cells := .normal }
    dsimp only
    split
    · exact restartCore_inv ht
    · exact .next ht
  · exact .next h

theorem tck_inv (h : Inv s) (tms tdi : Bool) : NextInv (s.tck tms tdi) := by
  unfold State.tck
  split
  · exact .next h
  · extract_lets st t
    have ht : Inv t := ((h.tckRise tdi).withTap _).tckFall
    split
    · exact runTestIdle_inv ht
    · exact .next ht

/-! ## The step -/

theorem Pins.drive_tapid (p : Pins) (pin : Pin) (high : Bool) : (Pins.drive p pin high).tapid = p.tapid := by
  cases pin <;> rfl

theorem Inv.reply (h : Inv s) (rs : List CpReply) : Inv (s.reply rs) := by
  unfold State.reply
  exact h.of_rest h.rest.of_eq

/-- Every move of every agent keeps the invariant. -/
theorem move_inv (h : Inv s) (m : Move) : NextInv (s.move m) := by
  cases m with
  | core => exact coreStep_inv h
  | fetch => exact fetchStep_inv h
  | pin p high => exact .next (h.of_rest (h.rest.of_eq (hid := Pins.drive_tapid ..)))
  | busWrite a v => exact .next (h.ofMem (State.busWrite_wf h.rest.mem))
  | codeWrite a v =>
    exact .next (h.of_rest ⟨h.rest.mem, State.codeWrite_wf h.rest.imem, h.rest.spsr, h.rest.w0, h.rest.w1, h.rest.queue,
      h.rest.tapid⟩)
  | memRules rules => exact .next (h.of_rest h.rest.of_eq)
  | othersWrite gaps => exact .next (h.of_rest h.rest.of_eq)
  | cpReply r => exact .next (h.reply _)
  | cpCodes cycles data => exact .next (h.reply _)
  | tck tms tdi => exact tck_inv h tms tdi
  | trst low => exact .next (h.trst low)
  | reset low =>
    cases low
    · exact .next h.releaseReset
    · exact struckBy_inv ((h.takeReset h []).held true)
  | resetDuring k => exact struckBy_inv (h.resetDuring k)
  | commsSync toDebugger => exact .next (h.commsSync toDebugger)
  | iceRead a => exact .next (h.viaTap (h.iceRead a))
  | iceWrite a v => exact .next (h.viaTap (h.iceWrite a v))
  | debugStep id ddIn => exact debugStep_inv h id ddIn
  | systemStep id => exact systemStep_inv h id
  | exitDebug target => exact exitDebug_inv h target

theorem step_inv (h : Inv s) : NextInv (step s) := by
  unfold step
  split
  · exact coreStep_inv h
  · exact move_inv (h.of_rest h.rest.of_eq) _

end

/-- Settles O8: a step is one move of one agent or a step of the core, and each keeps the invariant. -/
theorem invKept : Obligations.InvKept := by
  unfold Obligations.InvKept
  intro s t h ht
  exact (step_inv h).inv t ht

end Sys2Proof.Machine
end
section
/-!
PROOFS. 10_state.md R58 to R70: the EmbeddedICE registers through scan chain 2 (61_debug.md R800).
-/

namespace Sys2Proof.Machine

/-! ## What a read leaves on scan chain 2 -/

/-- A read puts the register's value in bits 31:0 of the chain. -/
theorem State.iceRead_getLsbD (s : State) (a : BitVec 5) {k : Nat} (hk : k < 32) :
    (s.iceRead a).tap.chain2.getLsbD k = (iceReadValue s a).getLsbD k := by
  rw [State.iceRead, BitVec.getLsbD_append, if_pos hk]

theorem State.iceRead_extract (s : State) (a : BitVec 5) {lo n : Nat} (h : lo + n ≤ 32) :
    (s.iceRead a).tap.chain2.extractLsb' lo n = (iceReadValue s a).extractLsb' lo n := by
  refine BitVec.eq_of_getLsbD_eq fun k hk => ?_
  rw [BitVec.getLsbD_extractLsb', BitVec.getLsbD_extractLsb', State.iceRead_getLsbD s a (by omega)]

/-- A register narrower than a word stands in the low bits (U30). -/
theorem widen_getLsbD (s : State) {n k : Nat} (v : BitVec n) (hn : n ≤ 32) (hk : k < n) :
    (widen s v).getLsbD k = v.getLsbD k := by
  rw [widen, BitVec.getLsbD_or, BitVec.getLsbD_setWidth, BitVec.getLsbD_shiftLeft]
  simp [hk, show k < 32 by omega]

theorem widen_extract (s : State) {n : Nat} (v : BitVec n) (hn : n ≤ 32) : (widen s v).extractLsb' 0 n = v := by
  refine BitVec.eq_of_getLsbD_eq fun k hk => ?_
  rw [BitVec.getLsbD_extractLsb', Nat.zero_add, widen_getLsbD s v hn hk, decide_eq_true hk, Bool.true_and]

/-! ## What is written is read back -/

/-- The value and mask registers of address and data, 32 bits each (R62). -/
theorem ice_word_readBack (s : State) (v : Word) :
    ∀ a ∈ [8#5, 9#5, 10#5, 11#5, 16#5, 17#5, 18#5, 19#5], iceReadValue (s.iceWrite a v) a = v := by
  intro a ha
  simp only [List.mem_cons, List.not_mem_nil, or_false] at ha
  rcases ha with rfl | rfl | rfl | rfl | rfl | rfl | rfl | rfl <;> rfl

/-- The control value registers, 9 bits (R64). -/
theorem ice_ctlValue_readBack (s : State) (v : Word) :
    ∀ a ∈ [12#5, 20#5], iceReadValue (s.iceWrite a v) a = widen (s.iceWrite a v) (v.extractLsb' 0 9) := by
  intro a ha
  simp only [List.mem_cons, List.not_mem_nil, or_false] at ha
  rcases ha with rfl | rfl <;> rfl

/-- The control mask registers, 8 bits with bit 3 clear (R65). -/
theorem ice_ctlMask_readBack (s : State) (v : Word) :
    ∀ a ∈ [13#5, 21#5], iceReadValue (s.iceWrite a v) a = widen (s.iceWrite a v) (v.extractLsb' 0 8 &&& 0xF7#8) := by
  intro a ha
  simp only [List.mem_cons, List.not_mem_nil, or_false] at ha
  rcases ha with rfl | rfl <;> rfl

/-- The vector catch register but for bit 5 (R61, U31). -/
theorem ice_vecCatch_readBack (s : State) (v : Word) {k : Nat} (hk : k < 8) (h5 : k ≠ 5) :
    (iceReadValue (s.iceWrite 2#5 v) 2#5).getLsbD k = v.getLsbD k := by
  have hmask : ∀ j < 8, j ≠ 5 → (0xDF#8).getLsbD j = true := by decide
  have hfree : ∀ j < 8, j ≠ 5 → ∀ b, ((bit b ++ 0#5).setWidth 8).getLsbD j = false := by decide
  let t := s.iceWrite 2#5 v
  have hr : iceReadValue t 2#5 = widen t (((v.extractLsb' 0 8 &&& 0xDF#8) &&& 0xDF#8) |||
      (bit (Config.freeBit t.draws) ++ 0#5).setWidth 8) := rfl
  rw [hr, widen_getLsbD _ _ (by decide) hk, BitVec.getLsbD_or, hfree k hk h5, BitVec.getLsbD_and, BitVec.getLsbD_and,
    hmask k hk h5, BitVec.getLsbD_extractLsb']
  simp [hk]

/-- The comms control register: its number in bits 31:28, W and R in bits 1:0 (R69). -/
theorem commsControl_fields (s : State) (w r : Bool) : (commsControl s w r).extractLsb' 28 4 = 0b0010#4 ∧
    (commsControl s w r).getLsbD 1 = w ∧ (commsControl s w r).getLsbD 0 = r := by
  unfold commsControl
  refine ⟨?_, ?_, ?_⟩
  · refine BitVec.eq_of_getLsbD_eq fun k hk => ?_
    rw [BitVec.getLsbD_extractLsb', BitVec.getLsbD_append, if_neg (by omega), BitVec.getLsbD_append, if_neg (by omega),
      BitVec.getLsbD_append, if_neg (by omega), decide_eq_true hk, Bool.true_and]
    congr 1
    omega
  · rw [BitVec.getLsbD_append, if_neg (by decide), BitVec.getLsbD_append, if_pos (by decide)]
    exact bit_getLsbD_zero w
  · rw [BitVec.getLsbD_append, if_pos (by decide)]
    exact bit_getLsbD_zero r

/-! ## Update-DR -/

/-- The bits of scan chain 2 as the debugger shifts them in: bit 37 says write, bits 36:32 are the address (R800). -/
theorem chain2_fields (b : BitVec 1) (a : BitVec 5) (w : Word) :
    (b ++ (a ++ w)).getLsbD 37 = b.getLsbD 0 ∧ (b ++ (a ++ w)).extractLsb' 32 5 = a ∧ (b ++ (a ++ w)).extractLsb' 0 32 = w := by
  refine ⟨by rw [BitVec.getLsbD_append, if_neg (by decide)], ?_, ?_⟩
  · refine BitVec.eq_of_getLsbD_eq fun k hk => ?_
    rw [BitVec.getLsbD_extractLsb', BitVec.getLsbD_append, if_pos (by omega), BitVec.getLsbD_append, if_neg (by omega),
      decide_eq_true hk, Bool.true_and, Nat.add_sub_cancel_left]
  · refine BitVec.eq_of_getLsbD_eq fun k hk => ?_
    rw [BitVec.getLsbD_extractLsb', BitVec.getLsbD_append, if_pos (by omega), BitVec.getLsbD_append, if_pos (by omega),
      decide_eq_true hk, Bool.true_and, Nat.zero_add]

/-- Under INTEST with scan chain 2 selected Update-DR makes the access that the chain holds. -/
theorem State.updateDr_chain2 {s : State} (hi : TapInstr.ofCode s.tap.ir = .intest) (hs : s.tap.screg = 2#5) {b : BitVec 1}
    {a : BitVec 5} {w : Word} (hc : s.tap.chain2 = b ++ (a ++ w)) :
    s.updateDr = if b.getLsbD 0 then s.iceWrite a w else s.iceRead a := by
  obtain ⟨h37, ha, hw⟩ := chain2_fields b a w
  have hsel : s.tap.selected = .chain2 := by
    rw [Tap.selected, hi, hs]
    rfl
  rw [State.updateDr, hi, hsel, hc]
  dsimp only
  rw [h37, ha, hw]

/-- Settles O56. -/
theorem iceRegisters : Obligations.IceRegisters := by
  unfold Obligations.IceRegisters
  intro s v
  obtain ⟨hnum, hw, hr⟩ := commsControl_fields s s.ice.wDbg s.ice.rDbg
  have hcc : iceReadValue s 4#5 = commsControl s s.ice.wDbg s.ice.rDbg := rfl
  refine ⟨fun a ha => ?_, fun a ha => ?_, fun a ha => ?_, ?_, fun k hk h5 => ?_, ?_, ⟨?_, ?_, ?_⟩, ⟨rfl, rfl⟩, rfl, rfl, rfl, rfl,
    ?_, rfl, fun a => ⟨rfl, rfl, rfl, rfl, rfl, rfl⟩, fun a w hi hs => ⟨fun hc => ?_, fun hc => ?_⟩⟩
  · rw [State.iceRead_extract _ _ (by decide), ice_word_readBack s v a ha, BitVec.extractLsb'_eq_self]
  · rw [State.iceRead_extract _ _ (by decide), ice_ctlValue_readBack s v a ha, widen_extract _ _ (by decide)]
  · rw [State.iceRead_extract _ _ (by decide), ice_ctlMask_readBack s v a ha, widen_extract _ _ (by decide)]
  · rw [State.iceRead_extract _ _ (by decide)]
    exact widen_extract _ (v.extractLsb' 0 4) (by decide)
  · rw [State.iceRead_getLsbD _ _ (by omega), ice_vecCatch_readBack s v hk h5]
  · rw [State.iceRead_extract _ _ (by decide)]
    exact widen_extract s (debugStatus s) (by decide)
  · rw [State.iceRead_extract _ _ (by decide), hcc, hnum]
  · rw [State.iceRead_getLsbD _ _ (by decide), hcc, hw]
  · rw [State.iceRead_getLsbD _ _ (by decide), hcc, hr]
  · rw [State.iceRead_extract _ _ (by decide), BitVec.extractLsb'_eq_self]
    rfl
  · rw [State.updateDr_chain2 hi hs hc]
    rfl
  · rw [State.updateDr_chain2 hi hs hc]
    rfl

end Sys2Proof.Machine
end
section
/-!
PROOFS. 70_reset_and_hazards.md R900 to R904: nRESET LOW between two instructions, within one, and while it stays LOW.
-/

namespace Sys2Proof.Machine

/-! ## What nRESET leaves -/

section
variable (s u : State) (written : List Nat)

/-- Supervisor mode, ARM state, I and F set, reserved bits clear (10_state.md R91, 60_exceptions.md R673). -/
theorem State.takeReset_psr : (s.takeReset u written).mode = svcMode ∧ bitT (s.takeReset u written).cpsr = false ∧
    maskI (s.takeReset u written).cpsr = true ∧ maskF (s.takeReset u written).cpsr = true ∧
    (s.takeReset u written).cpsr.extractLsb' 8 20 = 0#20 := by
  obtain ⟨n, z, c, v, hc⟩ := s.takeReset_cpsr u written
  rw [State.mode, hc, withNZCV_modeOf, withNZCV_bitT, withNZCV_maskI, withNZCV_maskF]
  refine ⟨by decide, by decide, by decide, by decide, BitVec.eq_of_getLsbD_eq fun k hk => ?_⟩
  rw [BitVec.getLsbD_extractLsb', psrOk_iff.mp (psrOk_withNZCV (p := 0x000000D3#32) n z c v (by decide)) _ (by omega) (by omega),
    Bool.and_false, BitVec.getLsbD_zero]

/-- A register that the struck instruction had not written keeps its value, R14_svc apart (10_state.md R93). -/
theorem State.takeReset_get {j : Fin 30} (h14 : j ≠ bankIndex svcMode 14#4) (hw : j.val ∉ written) :
    (s.takeReset u written).regs.get j = s.regs.get j := by
  obtain ⟨n, hn⟩ := s.takeReset_regs u written
  rw [hn, State.resetRegs, Vector.get_eq_getElem, Vector.getElem_ofFn]
  exact if_neg (not_or.mpr ⟨h14, hw⟩)

/-- So does an SPSR, SPSR_svc apart. -/
theorem State.takeReset_spsr_get {j : Fin 5} (hsvc : spsrIndex svcMode ≠ some j) (hw : 30 + j.val ∉ written) :
    (s.takeReset u written).spsr.get j = s.spsr.get j := by
  obtain ⟨n, hn⟩ := s.takeReset_spsr u written
  rw [hn, State.resetSpsrs, Vector.get_eq_getElem, Vector.getElem_ofFn]
  exact if_neg (not_or.mpr ⟨fun hj => hsvc (congrArg some hj.symm), hw⟩)

end

/-- What a state `t` is in which nRESET is LOW and has struck, on the way from `s` to `u`, an instruction that had written the
listed cells: the fields that the spec speaks of. -/
structure ResetHeld (s u : State) (written : List Nat) (t : State) : Prop where
  mode : t.mode = svcMode
  arm : bitT t.cpsr = false
  irqMasked : maskI t.cpsr = true
  fiqMasked : maskF t.cpsr = true
  reserved : t.cpsr.extractLsb' 8 20 = 0#20
  pc : t.pc = s.vectorBase
  regs : ∀ j : Fin 30, j ≠ bankIndex svcMode 14#4 → j.val ∉ written → t.regs.get j = s.regs.get j
  spsr : ∀ j : Fin 5, spsrIndex svcMode ≠ some j → 30 + j.val ∉ written → t.spsr.get j = s.spsr.get j
  mem : t.mem = u.mem
  imem : t.imem = u.imem
  bus : t.bus = u.bus
  ice : t.ice = u.ice
  tap : t.tap = u.tap
  held : t.inReset = true
  inDebug : t.dbg.inDebug = false
  queue : t.pipe.queue = []
  instrExec : t.instrExec = false
  pass : t.pass = false
  budget : t.sys.budget = none
  log : t.cop.log = u.cop.log ++ if u.pipe.busyWait then [.abandoned] else []
  schedule : t.schedule = u.schedule

theorem resetHeld (s u : State) (written : List Nat) :
    ResetHeld s u written { s.takeReset u written with inReset := true } := by
  obtain ⟨hm, ht, hi, hf, hr⟩ := s.takeReset_psr u written
  constructor <;> dsimp only [State.mode]
  case mode => exact hm
  case arm => exact ht
  case irqMasked => exact hi
  case fiqMasked => exact hf
  case reserved => exact hr
  case regs => exact fun _ => s.takeReset_get u written
  case spsr => exact fun _ => s.takeReset_spsr_get u written
  all_goals simp [Pipe.clear, Dbg.fresh, Dbg.clear]

/-- Where the struck instruction had written nothing, R14_svc is the only register that changes. -/
theorem ResetHeld.onlyRegs {s u t : State} (h : ResetHeld s u [] t) : OnlyRegs svcMode [14#4] s t := fun j hj =>
  h.regs j (fun he => hj 14#4 List.mem_cons_self (by decide) he.symm) List.not_mem_nil

/-- The step that nRESET strikes: what it had done stands, and where the model stops it, it has done nothing (log 24). -/
theorem State.resetDuring_cases (s : State) (k : Nat) :
    let struck := State.coreStep { s with wrote := [], sys := { s.sys with budget := some k } }
    (∃ u, struck = .next u ∧ ResetHeld s u u.wrote (s.resetDuring k)) ∨
      ((∀ u, struck ≠ .next u) ∧ ResetHeld s s [] (s.resetDuring k)) := by
  intro struck
  unfold State.resetDuring
  split
  · next u hu => exact .inl ⟨u, hu, resetHeld s u u.wrote⟩
  · next f hf => exact .inr ⟨fun u hu => (nomatch hf.symm.trans hu), resetHeld s s []⟩
  · next r hr => exact .inr ⟨fun u hu => (nomatch hr.symm.trans hu), resetHeld s s []⟩

/-- A step with a move due is that move. -/
theorem step_move {s : State} {m : Move} {rest : List Move} (h : s.schedule = m :: rest) :
    step s = State.move { s with schedule := rest } m := by
  rw [step, h]

/-- nRESET LOW between two instructions. -/
theorem step_reset {s : State} {rest : List Move} (h : s.schedule = .reset true :: rest)
    (hd : s.dbg.inDebug = false ∨ s.pins.strict = false) :
    ∃ t, step s = .next t ∧ ResetHeld { s with schedule := rest } { s with schedule := rest } [] t := by
  let s' : State := { s with schedule := rest }
  refine ⟨{ s'.takeReset s' [] with inReset := true }, ?_, resetHeld s' s' []⟩
  rw [step_move h, State.move, if_pos rfl, State.struckBy_next (s := s') hd]

/-- nRESET LOW within the step after it. -/
theorem step_resetDuring {s : State} {k : Nat} {rest : List Move} (h : s.schedule = .resetDuring k :: rest)
    (hd : s.dbg.inDebug = false ∨ s.pins.strict = false) :
    step s = .next (State.resetDuring { s with schedule := rest } k) := by
  rw [step_move h, State.move, State.struckBy_next (s := { s with schedule := rest }) hd]

/-- In reset the core does nothing (R901). -/
theorem step_inReset {s : State} (h : s.inReset = true) (hs : s.schedule = []) : step s = .next s := by
  simp [step, hs, State.coreStep, h]

/-- nRESET LOW in debug state is refused where the refusals of the spec are made (92_eei_decisions.md D16). -/
theorem step_reset_refused {s : State} {k : Nat} {rest : List Move} (hd : s.dbg.inDebug = true) (hp : s.pins.strict = true)
    (h : s.schedule = .reset true :: rest ∨ s.schedule = .resetDuring k :: rest) : step s = .refused .resetInDebug := by
  rcases h with h | h
  · rw [step_move h, State.move, if_pos rfl, State.struckBy_refused (s := { s with schedule := rest }) hd hp]
  · rw [step_move h, State.move, State.struckBy_refused (s := { s with schedule := rest }) hd hp]

/-! ## Accesses after nRESET has struck -/

/-- With nRESET striking before it, no access is made. -/
theorem State.access_struck {s : State} (hd : s.debugSpeed = false) (hb : s.sys.budget = some 0) (a v : Word) (size : Size)
    (user : Bool) (b : Beat) (late : Bool) :
    (s.readData a size user b).2 = s.drawn ∧ (s.writeData a size v user b late).2 = s := by
  simp [State.readData, State.writeData, hd, hb]

/-! ## A block store that nRESET strikes -/

theorem regList_length_le {n : Nat} (list : BitVec n) : (regList list).length ≤ 16 := by
  rw [regList, List.length_map]
  exact (List.length_filter_le ..).trans (List.length_range ..).le

/-- An STM (1) that runs has a register in its list. -/
theorem regList_pos_of_runs {c : Cond} {p u w : Bool} {rn : Reg} {list : BitVec 16} {s : State}
    (h : Runs (.stm1 c p u w rn list) s) : 0 < (regList list).length := by
  have hne : list ≠ 0#16 := by
    rintro rfl
    obtain ⟨hb, -⟩ := firstDefect_append.mp h.checks
    simp [blockDefect, firstDefect_cons] at hb
  obtain ⟨k, hk⟩ : ∃ k, list.getLsbD k = true := by
    by_contra hno
    exact hne (BitVec.eq_of_getLsbD_eq fun k _ => by simpa using fun hk => hno ⟨k, hk⟩)
  have h16 := BitVec.lt_of_getLsbD hk
  refine List.length_pos_of_ne_nil (regList_ne_nil (r := BitVec.ofNat 4 k) ?_)
  rwa [BitVec.toNat_ofNat, Nat.mod_eq_of_lt h16]

/-- The first `k` words of a block and their addresses. -/
theorem take_zip_blockAddrs (start : Word) (vals : List Word) (k : Nat) :
    ((blockAddrs start vals.length).zip vals).take k = (vals.take k).zipIdx.map fun x => (wordAddr start x.2, x.1) := by
  apply List.ext_getElem
  · simp [blockAddrs]
  · intro j _ _
    simp [blockAddrs]

/-- A block store that nRESET strikes after `k` accesses: the first `k` words are written and no other access is made (R900). -/
theorem blockStore_struck {start : Word} {vals : List Word} {rn : Reg} {wb : Option Word} {s : State} {k : Nat} (h0 : Alone s)
    (hd : s.debugSpeed = false) (hb : s.sys.budget = some k)
    (hr : ∀ j < vals.length, s.dataRule (wordAddr start j) .word true false = none) (hl : vals.length ≤ 2 ^ 30) :
    ∃ t, blockStore start vals rn wb s = .next t ∧ Stored (blockBytes s.pins.bigend start (vals.take k)) s t ∧
      t.bus.length = s.bus.length + min k vals.length := by
  have hrules : ∀ x ∈ (blockAddrs start vals.length).zip vals, s.dataRule x.1 .word true false = none := by
    intro x hx
    obtain ⟨j, hj, he⟩ := List.mem_map.mp (List.of_mem_zip (a := x.1) (b := x.2) hx).1
    rw [← he]
    exact hr j (List.mem_range.mp hj)
  obtain ⟨hok, hmem, hbus⟩ := writeRun_struck (seq := false) h0 hd hb hrules
  generalize he : writeRun false false ((blockAddrs start vals.length).zip vals) s = x at hok hmem hbus
  obtain ⟨bad, t⟩ := x
  obtain rfl : bad = false := hok
  refine ⟨(t.writeBack (wb.map fun v => (rn, v))).advance, by rw [blockStore, writeWords, he], ?_, ?_⟩
  · refine stored_storeMem (t := s) rfl ?_ (fun y hy => ?_) (blockBytes_nodup _ _ _ ?_)
    · rw [State.advance_mem, State.writeBack_mem, hmem, take_zip_blockAddrs, List.flatMap_map, blockBytes]
    · obtain ⟨x, -, hx⟩ := List.mem_flatMap.mp hy
      exact storeBytes_lt y hx
    · rw [List.length_take]
      omega
  · rw [State.advance_bus, State.writeBack_bus, hbus, List.length_zip, blockAddrs_length, Nat.min_self]

/-- An STM (1) whose accesses memory would answer, struck by nRESET after `k` of them. -/
theorem exec_stm1_struck {s : State} {c : Cond} {p u w : Bool} {rn : Reg} {list : BitVec 16} (k : Nat)
    (h : Runs (.stm1 c p u w rn list) s)
    (hw : BlockWritable s (blockStart p u (s.reg rn) (regList list).length) (regList list).length) :
    ∃ t, exec (.stm1 c p u w rn list) { s with sys := { s.sys with budget := some k } } = .next t ∧
      Stored (blockBytes s.pins.bigend (blockStart p u (s.reg rn) (regList list).length)
        (((regList list).map s.storedReg).take k)) s t ∧
      t.bus.length = s.bus.length + min k (regList list).length := by
  let s' : State := { s with sys := { s.sys with budget := some k } }
  have h' : Runs (.stm1 c p u w rn list) s' := h
  obtain ⟨hd, -, -⟩ := hw.2 0 (regList_pos_of_runs h)
  have hlen : ((regList list).map s.storedReg).length = (regList list).length := List.length_map ..
  obtain ⟨t, ht, hst, hbus⟩ := blockStore_struck (start := blockStart p u (s.reg rn) (regList list).length)
    (vals := (regList list).map s.storedReg) (rn := rn)
    (wb := if w then some (blockEnd u (s.reg rn) (regList list).length) else none)
    (s := s'.executed true) (k := k) hw.1 hd rfl (fun j hj => (hw.2 j (hlen ▸ hj)).2.2)
    (by have := regList_length_le list; omega)
  refine ⟨t, ?_, hst, by rw [hbus, hlen]; rfl⟩
  rw [run_stm1 h', stmPlain]
  exact ht

/-- Settles O44: whether nRESET strikes between two steps or within one, what it leaves is `ResetHeld`. -/
theorem resetPin : Obligations.ResetPin := by
  unfold Obligations.ResetPin
  refine ⟨fun s rest h hd => ?_, fun s => step_inReset, fun s k rest => step_reset_refused, fun s k rest h hd => ?_,
    fun s a v size user b late hd hb => ?_, fun s c p u w rn list k => exec_stm1_struck k⟩
  · obtain ⟨t, ht, hr⟩ := step_reset h hd
    exact ⟨t, ht, hr.mode, hr.arm, hr.irqMasked, hr.fiqMasked, hr.reserved, hr.pc, hr.onlyRegs,
      fun k hk => hr.spsr k hk List.not_mem_nil, hr.mem, hr.imem, hr.ice, hr.tap, hr.held, hr.inDebug, hr.queue, hr.instrExec,
      hr.pass, hr.log, hr.schedule⟩
  · refine ⟨_, step_resetDuring h hd, ?_⟩
    rcases State.resetDuring_cases { s with schedule := rest } k with ⟨u, hu, hr⟩ | ⟨hno, hr⟩
    · refine ⟨hr.mode, hr.arm, hr.irqMasked, hr.fiqMasked, hr.pc, hr.held, hr.inDebug, hr.queue, hr.instrExec, hr.pass, hr.budget,
        fun u' hu' => ?_, fun hno => absurd hu (hno u)⟩
      obtain rfl : u = u' := by simpa using hu.symm.trans hu'
      exact ⟨hr.mem, hr.imem, hr.bus, hr.regs, hr.spsr⟩
    · exact ⟨hr.mode, hr.arm, hr.irqMasked, hr.fiqMasked, hr.pc, hr.held, hr.inDebug, hr.queue, hr.instrExec, hr.pass, hr.budget,
        fun u hu => absurd hu (hno u), fun _ => ⟨hr.mem, hr.imem, hr.bus, hr.onlyRegs,
          fun j hsvc => hr.spsr j hsvc List.not_mem_nil⟩⟩
  · obtain ⟨hread, hwrite⟩ := State.access_struck hd hb a v size user b late
    rw [hread, hwrite]
    exact ⟨⟨rfl, rfl⟩, ⟨rfl, rfl⟩⟩

end Sys2Proof.Machine
end
section
/-!
PROOFS. 20_memory.md R120 to R131: bytes, halfwords and words of memory in either byte order.
-/

namespace Sys2Proof.Machine

/-! ## Byte addresses -/

/-- Byte addresses are counted modulo 2^32 (00_scope.md R18). -/
theorem byteAddr_eq_mod (a : Word) (i : Nat) : byteAddr a i = (a.toNat + i) % 2 ^ 32 := by
  rw [byteAddr, BitVec.toNat_add, BitVec.toNat_ofNat, Nat.add_mod_mod]

theorem extractLsb'_low_two_toNat (a : Word) : (a.extractLsb' 0 2).toNat = a.toNat % 4 := by
  rw [BitVec.extractLsb'_toNat, Nat.shiftRight_zero]

/-- The place of an address within its word, by its two lowest bits. -/
theorem toNat_mod_four (a : Word) : a.toNat % 4 = 2 * (a.getLsbD 1).toNat + (a.getLsbD 0).toNat := by
  have h0 : (a.getLsbD 0).toNat = a.toNat % 2 := by rw [BitVec.getLsbD, Nat.toNat_testBit, Nat.pow_zero, Nat.div_one]
  have h1 : (a.getLsbD 1).toNat = a.toNat / 2 % 2 := by rw [BitVec.getLsbD, Nat.toNat_testBit, Nat.pow_one]
  omega

/-- The word that holds `a` begins `a mod 4` bytes below it. -/
theorem byteAddr_mask4 (a : Word) (i : Nat) : byteAddr (a &&& 0xFFFFFFFC#32) (a.toNat % 4 + i) = byteAddr a i := by
  rw [byteAddr_eq_mod, byteAddr_eq_mod, toNat_mask4]
  congr 1
  omega

theorem byteAddr_mask4_zero (a : Word) : byteAddr (a &&& 0xFFFFFFFC#32) (a.toNat % 4) = byteAddr a 0 := byteAddr_mask4 a 0

theorem mask4_of_aligned {a : Word} (h : a.extractLsb' 0 2 = 0#2) : a &&& 0xFFFFFFFC#32 = a := by
  have h4 : a.toNat % 4 = 0 := by rw [← extractLsb'_low_two_toNat, h]; rfl
  apply BitVec.eq_of_toNat_eq
  rw [toNat_mask4, h4, Nat.sub_zero]

theorem mask2_of_even {a : Word} (h : a.getLsbD 0 = false) : a &&& 0xFFFFFFFE#32 = a := by
  have hm : ∀ k < 32, (0xFFFFFFFE#32).getLsbD k = decide (k ≠ 0) := by decide
  refine BitVec.eq_of_getLsbD_eq fun k hk => ?_
  rw [BitVec.getLsbD_and, hm k hk]
  by_cases h0 : k = 0
  · rw [h0, h, Bool.false_and]
  · rw [decide_eq_true h0, Bool.and_true]

theorem mask4_idem (a : Word) : a &&& 0xFFFFFFFC#32 &&& 0xFFFFFFFC#32 = a &&& 0xFFFFFFFC#32 := by
  rw [BitVec.and_assoc, BitVec.and_self]

/-! ## The bytes of a bus word -/

/-- The byte of a bus word whose address is `i` above the word's (20_memory.md R125). -/
def busByte (big : Bool) (w : Word) (i : Nat) : Byte := w.extractLsb' (if big then 24 - 8 * i else 8 * i) 8

/-- Above the byte appended last stand the bits of what it was appended to. -/
theorem extractLsb'_append_byte {n : Nat} (x : BitVec n) (b : Byte) (k : Nat) :
    (x ++ b).extractLsb' (k + 8) 8 = x.extractLsb' k 8 := by
  rw [BitVec.extractLsb'_append_eq_of_le (Nat.le_add_left 8 k), Nat.add_sub_cancel]

/-- The four bytes of which a word is put together, lowest first. -/
theorem extractLsb'_append_four (b3 b2 b1 b0 : Byte) :
    (b3 ++ b2 ++ b1 ++ b0).extractLsb' 0 8 = b0 ∧ (b3 ++ b2 ++ b1 ++ b0).extractLsb' 8 8 = b1 ∧
      (b3 ++ b2 ++ b1 ++ b0).extractLsb' 16 8 = b2 ∧ (b3 ++ b2 ++ b1 ++ b0).extractLsb' 24 8 = b3 := by
  have h1 : (b3 ++ b2 ++ b1).extractLsb' 0 8 = b1 := BitVec.extractLsb'_append_eq_right
  have h2 : (b3 ++ b2 ++ b1).extractLsb' 8 8 = b2 :=
    (extractLsb'_append_byte (b3 ++ b2) b1 0).trans BitVec.extractLsb'_append_eq_right
  have h3 : (b3 ++ b2 ++ b1).extractLsb' 16 8 = b3 :=
    (extractLsb'_append_byte (b3 ++ b2) b1 8).trans BitVec.extractLsb'_append_eq_left
  exact ⟨BitVec.extractLsb'_append_eq_right, (extractLsb'_append_byte _ b0 0).trans h1,
    (extractLsb'_append_byte _ b0 8).trans h2, (extractLsb'_append_byte _ b0 16).trans h3⟩

theorem busByte_wordOf (big : Bool) (b0 b1 b2 b3 : Byte) :
    busByte big (wordOf big b0 b1 b2 b3) 0 = b0 ∧ busByte big (wordOf big b0 b1 b2 b3) 1 = b1 ∧
      busByte big (wordOf big b0 b1 b2 b3) 2 = b2 ∧ busByte big (wordOf big b0 b1 b2 b3) 3 = b3 := by
  cases big
  · exact extractLsb'_append_four b3 b2 b1 b0
  · obtain ⟨h3, h2, h1, h0⟩ := extractLsb'_append_four b0 b1 b2 b3
    exact ⟨h0, h1, h2, h3⟩

/-- Each byte of the bus word is the byte of memory at its address. -/
theorem busByte_busWordAt (big : Bool) (m : List Host.Cell) (a : Word) {i : Nat} (hi : i < 4) :
    busByte big (busWordAt big m a) i = Memory.read m (byteAddr (a &&& 0xFFFFFFFC#32) i) := by
  obtain ⟨h0, h1, h2, h3⟩ := busByte_wordOf big (Memory.read m (byteAddr (a &&& 0xFFFFFFFC#32) 0))
    (Memory.read m (byteAddr (a &&& 0xFFFFFFFC#32) 1)) (Memory.read m (byteAddr (a &&& 0xFFFFFFFC#32) 2))
    (Memory.read m (byteAddr (a &&& 0xFFFFFFFC#32) 3))
  match i, hi with
  | 0, _ => exact h0
  | 1, _ => exact h1
  | 2, _ => exact h2
  | 3, _ => exact h3

/-- The lane of a byte is the one of its address within the word. -/
theorem lane_byte (big : Bool) (a w : Word) : lane big .byte a w = (busByte big w (a.toNat % 4)).setWidth 32 := by
  rw [toNat_mod_four]
  unfold lane busByte
  cases big <;> cases a.getLsbD 1 <;> cases a.getLsbD 0 <;> rfl

/-- The lane of a halfword is made of its two bytes. -/
theorem lane_half (big : Bool) {a : Word} (h : a.getLsbD 0 = false) (w : Word) : lane big .half a w =
    (halfOf big (busByte big w (a.toNat % 4)) (busByte big w (a.toNat % 4 + 1))).setWidth 32 := by
  have adjacent : ∀ n, w.extractLsb' (n + 8) 8 ++ w.extractLsb' n 8 = w.extractLsb' n 16 := fun n =>
    BitVec.extractLsb'_append_extractLsb'_eq_extractLsb' rfl
  rw [toNat_mod_four, h]
  unfold lane busByte halfOf
  cases big <;> cases a.getLsbD 1
  · exact congrArg (BitVec.setWidth 32) (adjacent 0).symm
  · exact congrArg (BitVec.setWidth 32) (adjacent 16).symm
  · exact congrArg (BitVec.setWidth 32) (adjacent 16).symm
  · exact congrArg (BitVec.setWidth 32) (adjacent 0).symm

/-! ## What is read -/

/-- A byte is read from its address (20_memory.md R122). -/
theorem lane_byte_busWordAt (big : Bool) (m : List Host.Cell) (a : Word) :
    lane big .byte a (busWordAt big m a) = (Memory.read m (byteAddr a 0)).setWidth 32 := by
  rw [lane_byte, busByte_busWordAt big m a (Nat.mod_lt _ (by decide)), byteAddr_mask4_zero]

/-- A halfword is read from the two bytes at its address (R123, R125). -/
theorem lane_half_busWordAt (big : Bool) (m : List Host.Cell) {a : Word} (h : a.getLsbD 0 = false) :
    lane big .half a (busWordAt big m a) =
      (halfOf big (Memory.read m (byteAddr a 0)) (Memory.read m (byteAddr a 1))).setWidth 32 := by
  have hlt : a.toNat % 4 + 1 < 4 := by
    have := Bool.toNat_le (a.getLsbD 1)
    rw [toNat_mod_four, h, Bool.toNat_false]
    omega
  rw [lane_half big h, busByte_busWordAt big m a (Nat.lt_of_succ_lt hlt), busByte_busWordAt big m a hlt,
    byteAddr_mask4_zero, byteAddr_mask4]

/-- An aligned word is read from the four bytes at its address (R125). -/
theorem busWordAt_aligned (big : Bool) (m : List Host.Cell) {a : Word} (h : a.extractLsb' 0 2 = 0#2) :
    busWordAt big m a = wordOf big (Memory.read m (byteAddr a 0)) (Memory.read m (byteAddr a 1))
      (Memory.read m (byteAddr a 2)) (Memory.read m (byteAddr a 3)) := by
  rw [busWordAt, mask4_of_aligned h]
  rfl

/-- A word access ignores the two lowest bits of the address (R130). -/
theorem busWordAt_mask4 (big : Bool) (m : List Host.Cell) (a : Word) :
    busWordAt big m (a &&& 0xFFFFFFFC#32) = busWordAt big m a := by
  rw [busWordAt, busWordAt, mask4_idem]

/-! ## What is loaded -/

/-- A word loaded is the word read, rotated right by the place of the address within it (R130, 43_arm_load_store.md R346). -/
theorem rotateWord_getLsbD (a w : Word) {k : Nat} (hk : k < 32) :
    (rotateWord a w).getLsbD k = w.getLsbD ((k + 8 * (a.toNat % 4)) % 32) := by
  have hr : 8 * (a.toNat % 4) < 32 := by omega
  rw [rotateWord, extractLsb'_low_two_toNat, BitVec.getLsbD_rotateRight, Nat.mod_eq_of_lt hr]
  generalize 8 * (a.toNat % 4) = r at hr
  by_cases hlow : k < 32 - r
  · rw [decide_eq_true hlow, cond_true, Nat.mod_eq_of_lt (by omega), Nat.add_comm]
  · rw [decide_eq_false hlow, cond_false, decide_eq_true hk, Bool.true_and]
    congr 1
    omega

/-- A signed load of a narrower value keeps it as a signed value (R361, R362). -/
theorem toInt_signExtend_widened {n : Nat} (x : BitVec n) (h : n ≤ 32) :
    (((x.setWidth 32).extractLsb' 0 n).signExtend 32).toInt = x.toInt := by
  rw [BitVec.toInt_signExtend_of_le h, BitVec.extractLsb'_setWidth_of_le (by omega), BitVec.extractLsb'_eq_self]

/-! ## What is stored -/

theorem storeBytes_half {a : Word} (h : a.getLsbD 0 = false) (big : Bool) (v : Word) : storeBytes big .half a v =
    if big then [(byteAddr a 0, v.extractLsb' 8 8), (byteAddr a 1, v.extractLsb' 0 8)]
    else [(byteAddr a 0, v.extractLsb' 0 8), (byteAddr a 1, v.extractLsb' 8 8)] := by
  rw [storeBytes, mask2_of_even h]
  cases big <;> rfl

theorem storeBytes_word {a : Word} (h : a.extractLsb' 0 2 = 0#2) (big : Bool) (v : Word) : storeBytes big .word a v =
    if big then [(byteAddr a 0, v.extractLsb' 24 8), (byteAddr a 1, v.extractLsb' 16 8),
      (byteAddr a 2, v.extractLsb' 8 8), (byteAddr a 3, v.extractLsb' 0 8)]
    else [(byteAddr a 0, v.extractLsb' 0 8), (byteAddr a 1, v.extractLsb' 8 8),
      (byteAddr a 2, v.extractLsb' 16 8), (byteAddr a 3, v.extractLsb' 24 8)] := by
  rw [storeBytes, mask4_of_aligned h]
  cases big <;> rfl

theorem storeBytes_word_mask4 (big : Bool) (a v : Word) :
    storeBytes big .word (a &&& 0xFFFFFFFC#32) v = storeBytes big .word a v := by
  rw [storeBytes, storeBytes, mask4_idem]

/-- Settles O24: one clause for each size read, for each kind of load and for each size stored. -/
theorem byteOrder : Obligations.ByteOrder := by
  unfold Obligations.ByteOrder
  intro s a v
  have hbyte : s.busRead .byte a = (s.byteAt (byteAddr a 0)).setWidth 32 := lane_byte_busWordAt ..
  have hhalf (h : a.getLsbD 0 = false) : s.busRead .half a =
      (halfOf s.pins.bigend (s.byteAt (byteAddr a 0)) (s.byteAt (byteAddr a 1))).setWidth 32 := lane_half_busWordAt _ _ h
  refine ⟨byteAddr_eq_mod a, hbyte, hhalf, busWordAt_aligned _ _, (busWordAt_mask4 ..).symm,
    fun k hk => rotateWord_getLsbD a _ hk, ?ubyte, ?sbyte, fun h => ⟨?uhalf, ?shalf⟩, fun _ => rfl,
    fun big h => storeBytes_half h big v, fun big h => storeBytes_word h big v, fun big => (storeBytes_word_mask4 big a v).symm⟩
  case ubyte => rw [hbyte]; exact BitVec.toNat_setWidth_of_le (by decide)
  case sbyte => rw [hbyte]; exact toInt_signExtend_widened _ (by decide)
  case uhalf => rw [hhalf h]; exact BitVec.toNat_setWidth_of_le (by decide)
  case shalf => rw [hhalf h]; exact toInt_signExtend_widened _ (by decide)

end Sys2Proof.Machine
end
section
/-!
PROOFS. 20_memory.md R110 to R112: the instruction that a step of the core runs, from the bytes at the PC or from the prefetch queue.
-/

namespace Sys2Proof.Machine

/-! ## The instruction at the PC -/

/-- The word fetched at an aligned address holds the instruction that the bytes there decode to (20_memory.md R110 to R112). -/
theorem decodeBytes_at {s : State} (h : pcOk s = true) (m : List Host.Cell) :
    decodeBytes (bitT s.cpsr) s.pins.bigend ((List.range s.width.toNat).map fun k => Memory.read m (byteAddr s.pc k)) =
      .ok (decodeCode (s.codeOf s.pc (busWordAt s.pins.bigend m s.pc)), []) := by
  unfold pcOk at h
  unfold State.width State.codeOf
  cases ht : bitT s.cpsr
  · have hal : s.pc.extractLsb' 0 2 = 0#2 := by simpa [ht] using h
    simp only [Bool.false_eq_true, if_false, busWordAt_aligned _ m hal]
    rfl
  · have hal : s.pc.getLsbD 0 = false := by simpa [ht] using h
    have hhalf (x : Half) : (x.setWidth 32).extractLsb' 0 16 = x := by
      rw [BitVec.extractLsb'_setWidth_of_le (by decide), BitVec.extractLsb'_eq_self]
    simp only [if_true, lane_half_busWordAt _ m hal, hhalf]
    rfl

/-- What the core takes from ID depends on the T bit and the byte order. -/
theorem State.codeOf_congr {s t : State} (hc : t.cpsr = s.cpsr) (hb : t.pins.bigend = s.pins.bigend) (a id : Word) :
    t.codeOf a id = s.codeOf a id := by
  rw [State.codeOf, State.codeOf, hc, hb]

/-- Sampling the interrupt inputs leaves the fetched instruction as it is. -/
@[simp] theorem State.sampled_fetched (s : State) : s.sampled.fetched = s.fetched := by
  rw [State.fetched, State.sampled_head, State.codeOf_congr s.sampled_cpsr s.sampled_bigend, State.sampled_pc, State.fetched]

/-- The instruction at the PC, by what is at the head of the filled queue. -/
theorem State.filled_fetched (s : State) : s.filled.fetched = decodeCode (s.codeOf s.pc s.filled.head.id) := by
  rw [State.fetched, State.filled, State.fill_pc, State.codeOf_congr (s := s) (by simp) (by simp)]

/-- An instruction fetched already is the one that runs (10_state.md R77). -/
theorem State.fetched_of_queue {s : State} {k : Slot} {q : List Slot} (h : s.pipe.queue = k :: q) :
    s.filled.fetched = decodeCode (s.codeOf s.pc k.id) := by
  rw [State.filled_fetched, State.head_filled h]

/-- With nothing fetched, the one that runs comes from the memory of the instruction interface. -/
theorem State.fetched_of_memory {s : State} (hq : s.pipe.queue = []) (hr : s.fetchRule s.pc = none) :
    s.filled.fetched = decodeCode (s.codeOf s.pc (busWordAt s.pins.bigend (s.fetchMem s.pc) s.pc)) := by
  rw [State.filled_fetched, State.head_filled_nil hq, State.fetchWord, hr]
  rfl

/-- An instruction that no hazard stops is executed. -/
theorem State.run_of_noHazard {s : State} {i : Instr} (h : userBankHazard i s = false) : s.run i = finish (exec i s.begin) := by
  rw [State.run, h, if_neg Bool.false_ne_true]

/-- Settles O5: the step of a boundary that is ready runs the fetched instruction, and that is `i` either way. -/
theorem stepRunsDecoded : Obligations.StepRunsDecoded := by
  unfold Obligations.StepRunsDecoded
  intro s i hready hpc hhazard hi
  have hfetched : s.filled.fetched = i := by
    rcases hi with ⟨hq, hrule, rest, hbytes⟩ | ⟨k, q, hq, hcode⟩
    · rw [decodeBytes_at hpc] at hbytes
      cases hbytes
      exact State.fetched_of_memory hq hrule
    · rw [State.fetched_of_queue hq, hcode]
  refine ⟨?_, by simp [State.filled]⟩
  rw [step_ready hready, State.sampled_fetched, hfetched, State.run_of_noHazard hhazard]

end Sys2Proof.Machine
end
section
/-!
PROOFS. 20_memory.md R150, 10_state.md R50 and 70_reset_and_hazards.md R921: the hazards at which the machine stops.
-/

namespace Sys2Proof.Machine

/-! ## The banked registers an instruction names -/

section
variable {s : State} {i : Instr}

/-- A register of the current bank that the instruction names counts, whatever other bank it writes R14 of. -/
theorem namedIn_any_of_named {r : Reg} (hr : r ∈ Instr.named i) (hb : banked s.mode r = true) :
    ((s.namedIn i).any fun x => banked x.1 x.2) = true := by
  have here : (((Instr.named i).map fun r => (s.mode, r)).any fun x => banked x.1 x.2) = true :=
    List.any_eq_true.mpr ⟨(s.mode, r), List.mem_map_of_mem hr, hb⟩
  unfold State.namedIn
  split
  case h_9 =>
    split
    · rw [List.any_cons, here, Bool.or_true]
    · exact here
  all_goals rfl

/-- An instruction offered to the coprocessors that none takes writes R14_und. -/
theorem namedIn_any_of_absent (ho : offered i = true) (ha : s.cop.replies = [] ∨ s.cop.replies.head? = some .absent) :
    ((s.namedIn i).any fun x => banked x.1 x.2) = true := by
  have habsent : (s.cop.replies.head?.all (· == .absent)) = true := by rcases ha with ha | ha <;> rw [ha] <;> rfl
  unfold State.namedIn
  split
  case h_9 =>
    rw [ho, habsent, Bool.and_self, if_pos rfl]
    rfl
  all_goals rfl

/-- The hazard depends on the mark that LDM (2) or STM (2) left, the CPSR and the coprocessors' answers. -/
theorem userBankHazard_congr {t : State} (hu : t.pipe.userBank = s.pipe.userBank) (hc : t.cpsr = s.cpsr) (hr : t.cop = s.cop) :
    userBankHazard i t = userBankHazard i s := by
  unfold userBankHazard passes State.namedIn State.mode
  rw [hu, hc, hr]

/-- The hazard is there when the mark is, and the instruction executes and names a banked register. -/
theorem userBankHazard_of_named (hu : s.pipe.userBank = true) (hp : passes i s = true)
    (hn : ((s.namedIn i).any fun x => banked x.1 x.2) = true) : userBankHazard i s = true := by
  rw [userBankHazard, hu, hp, hn]
  rfl

end

/-! ## Which hazard a step meets -/

section
variable {s : State}

/-- Behind the last instruction of the address space (10_state.md R50). -/
theorem step_wrapped (h1 : s.schedule = []) (h2 : s.inReset = false) (h3 : s.dbg.inDebug = false) (h4 : s.cutOff = false)
    (hw : s.pipe.wrapped = true) : step s = .fault .ranPastTop := by
  simp [step, h1, State.coreStep, h2, h3, h4, hw]

/-- An instruction that is neither aborted nor marked, and that a store has overwritten since its fetch (20_memory.md R150). -/
theorem step_stale (hq : Quiet s) (ha : s.filled.fetchAborts = false) (hm : s.filled.marked = false) (hs : s.pc ∈ s.pipe.stale) :
    step s = .fault .staleFetch := by
  rw [step_quiet hq]
  obtain ⟨-, -, -, -, hb⟩ := hq
  rw [State.fetchAborts] at ha
  rw [State.marked] at hm
  simp [State.execute, hb, State.fetchAborts, State.marked, ha, hm, hs]

/-- An instruction that would run, right after LDM (2) or STM (2) (70_reset_and_hazards.md R921). -/
theorem step_userBank (h : Ready s) (hz : userBankHazard s.filled.fetched s = true) : step s = .fault .userBankHazard := by
  rw [step_ready h, State.sampled_fetched, State.run,
    userBankHazard_congr (s := s) (by simp) (by simp [State.filled]) (by simp [State.filled]), hz, if_pos rfl]

end

/-- Settles O60: one clause for each hazard. -/
theorem hazardStops : Obligations.HazardStops := by
  unfold Obligations.HazardStops
  intro s h1 h2 h3 h4
  refine ⟨step_wrapped h1 h2 h3 h4, fun hq ha hm => ⟨step_stale hq ha hm, fun hs hu hp hcases => ?_⟩⟩
  refine step_userBank ⟨hq, ha, hm, hs⟩ (userBankHazard_of_named hu hp ?_)
  rcases hcases with ⟨r, hr, hb⟩ | ⟨c, n, hswi⟩ | ⟨c, b, hund⟩ | ⟨ho, habsent⟩
  · exact namedIn_any_of_named hr hb
  · rw [hswi]; rfl
  · rcases hund with h | h | h | h | h | h | h <;> rw [h] <;> rfl
  · exact namedIn_any_of_absent ho habsent

end Sys2Proof.Machine
end

section
/-!
PROOFS. 40_arm_data_processing.md: the barrel shifter, whose operations are first related to one plain shift or rotation each, for
every amount, and then read in integers and bits.
-/

namespace Sys2Proof.Machine

/-! ## Shifts and rotations of a word -/

/-- A rotation to the right, bit by bit, for any amount. -/
theorem rotateRight_getLsbD (m : Word) (n : Nat) {k : Nat} (hk : k < 32) :
    (m.rotateRight n).getLsbD k = m.getLsbD ((k + n) % 32) := by
  have hr : n % 32 < 32 := Nat.mod_lt n (by decide)
  have hsum : (k + n) % 32 = (k + n % 32) % 32 := by omega
  rw [BitVec.getLsbD_rotateRight, hsum]
  generalize n % 32 = r at hr
  by_cases hlow : k < 32 - r
  · rw [decide_eq_true hlow, cond_true, Nat.mod_eq_of_lt (by omega), Nat.add_comm]
  · rw [decide_eq_false hlow, cond_false, decide_eq_true hk, Bool.true_and]
    congr 1
    omega

/-- A rotation by a multiple of the width is none. -/
theorem rotateRight_of_mod_eq_zero (m : Word) {n : Nat} (hn : n % 32 = 0) : m.rotateRight n = m := by
  apply BitVec.eq_of_getLsbD_eq
  intro k hk
  rw [rotateRight_getLsbD m n hk]
  congr 1
  omega

/-- An arithmetic shift by 31 or more leaves only copies of the sign. -/
theorem sshiftRight_of_le (m : Word) {n : Nat} (hn : 31 ≤ n) : m.sshiftRight n = m.sshiftRight 31 := by
  apply BitVec.eq_of_getLsbD_eq
  intro k hk
  rw [BitVec.getLsbD_sshiftRight, BitVec.getLsbD_sshiftRight]
  by_cases hbit : 31 + k < 32
  · obtain rfl : k = 0 := by omega
    by_cases h31 : n = 31
    · rw [h31]
    · rw [if_neg (by omega), if_pos hbit, BitVec.msb_eq_getLsbD_last]
  · rw [if_neg (by omega), if_neg hbit]

theorem shiftLeft_toNat (m : Word) (n : Nat) : (m <<< n).toNat = m.toNat * 2 ^ n % 2 ^ 32 := by
  rw [BitVec.toNat_shiftLeft, Nat.shiftLeft_eq]

theorem ushiftRight_toNat (m : Word) (n : Nat) : (m >>> n).toNat = m.toNat / 2 ^ n := by
  rw [BitVec.toNat_ushiftRight, Nat.shiftRight_eq_div_pow]

theorem sshiftRight_toInt (m : Word) (n : Nat) : (m.sshiftRight n).toInt = m.toInt / 2 ^ n := by
  rw [BitVec.toInt_sshiftRight, Int.shiftRight_eq_div_pow]
  norm_cast

/-- Rotation right by one through the C flag (R259). -/
theorem rrx_getLsbD (m : Word) (c : Bool) {k : Nat} (hk : k < 32) :
    (bit c ++ m.extractLsb' 1 31 : Word).getLsbD k = if k = 31 then c else m.getLsbD (k + 1) := by
  rw [BitVec.getLsbD_append]
  by_cases h31 : k = 31
  · subst h31
    exact bit_getLsbD_zero c
  · have hlow : k < 31 := by omega
    rw [if_pos hlow, if_neg h31, BitVec.getLsbD_extractLsb', decide_eq_true hlow, Bool.true_and, Nat.add_comm]

/-! ## The immediate operand and the immediate shifts -/

/-- The immediate is `imm8` rotated right by twice `rotate` (R255). -/
theorem rotImm_value_getLsbD (o : RotImm) {k : Nat} (hk : k < 32) :
    (RotImm.value o).getLsbD k = o.imm8.getLsbD ((k + 2 * o.rot.toNat) % 32) := by
  have hmod : (k + 2 * o.rot.toNat) % 32 < 32 := Nat.mod_lt _ (by decide)
  rw [RotImm.value, rotateRight_getLsbD _ _ hk, BitVec.getLsbD_setWidth, decide_eq_true hmod, Bool.true_and]

theorem op2Imm_carry (s : State) (o : RotImm) :
    (op2Imm s o).carry = if o.rot.toNat = 0 then flagC s.cpsr else (op2Imm s o).val.getLsbD 31 := by
  have hzero : o.rot = 0#4 ↔ o.rot.toNat = 0 := BitVec.toNat_inj.symm
  simp only [op2Imm, hzero]

section
variable (m : Word) (c : Bool)

theorem shiftByImm_lsl_zero : shiftByImm .lsl m 0 c = ⟨m, c⟩ := rfl
theorem shiftByImm_lsr_zero : shiftByImm .lsr m 0 c = ⟨0, m.getLsbD 31⟩ := rfl
theorem shiftByImm_asr_zero : shiftByImm .asr m 0 c = ⟨m.sshiftRight 31, m.getLsbD 31⟩ := rfl
theorem shiftByImm_ror_zero : shiftByImm .ror m 0 c = ⟨bit c ++ m.extractLsb' 1 31, m.getLsbD 0⟩ := rfl

variable {n : Nat} (hn : 0 < n)
include hn

theorem shiftByImm_lsl_pos : shiftByImm .lsl m n c = ⟨m <<< n, m.getLsbD (32 - n)⟩ := if_neg hn.ne'
theorem shiftByImm_lsr_pos : shiftByImm .lsr m n c = ⟨m >>> n, m.getLsbD (n - 1)⟩ := if_neg hn.ne'
theorem shiftByImm_asr_pos : shiftByImm .asr m n c = ⟨m.sshiftRight n, m.getLsbD (n - 1)⟩ := if_neg hn.ne'
theorem shiftByImm_ror_pos : shiftByImm .ror m n c = ⟨m.rotateRight n, m.getLsbD (n - 1)⟩ := if_neg hn.ne'
end

/-- Settles O17: amount 0 is the special case of each shift type, and every other amount is the plain shift. -/
theorem immediateShifts : Obligations.ImmediateShifts := by
  unfold Obligations.ImmediateShifts
  refine ⟨fun s o k hk => rotImm_value_getLsbD o hk, op2Imm_carry, fun s o => rfl, fun m n c _ => ?_⟩
  rcases n.eq_zero_or_pos with rfl | hn
  · rw [shiftByImm_lsl_zero, shiftByImm_lsr_zero, shiftByImm_asr_zero, shiftByImm_ror_zero]
    have hlsl : m.toNat = m.toNat * 2 ^ 0 % 2 ^ 32 := by simpa using (shiftLeft_toNat m 0)
    have hasr : (m.sshiftRight 31).toInt = m.toInt / 2 ^ 32 := by
      rw [← sshiftRight_of_le m (n := 32) (by decide), sshiftRight_toInt]
    exact ⟨hlsl, rfl, rfl, rfl, hasr, rfl, fun k hk => rrx_getLsbD m c hk, rfl⟩
  · have hne : n ≠ 0 := hn.ne'
    rw [shiftByImm_lsl_pos m c hn, shiftByImm_lsr_pos m c hn, shiftByImm_asr_pos m c hn, shiftByImm_ror_pos m c hn]
    simp only [if_neg hne]
    exact ⟨shiftLeft_toNat m n, trivial, ushiftRight_toNat m n, trivial, sshiftRight_toInt m n, trivial,
      fun k hk => rotateRight_getLsbD m n hk, trivial⟩

/-! ## The shifts by a register -/

section
variable (m : Word) (c : Bool)

/-- The amount of a shift by a register is the low byte of the register (R260). -/
theorem op2ShiftReg_eq (s : State) (o : ShiftReg) :
    op2ShiftReg s o = shiftByReg o.ty (s.reg o.rm) ((s.reg o.rs).toNat % 256) (flagC s.cpsr) := by
  rw [op2ShiftReg, BitVec.extractLsb'_toNat, Nat.shiftRight_zero]

theorem shiftByReg_zero (ty : ShiftType) : shiftByReg ty m 0 c = ⟨m, c⟩ := rfl

variable {n : Nat} (hn : 0 < n)
include hn

/-- Every row of R260's table for LSL is the plain shift: from 32 on it shifts everything out. -/
theorem shiftByReg_lsl_pos : shiftByReg .lsl m n c = ⟨m <<< n, decide (n ≤ 32) && m.getLsbD (32 - n)⟩ := by
  simp only [shiftByReg, if_neg hn.ne']
  rcases lt_trichotomy n 32 with hlt | rfl | hgt
  · rw [if_pos hlt, decide_eq_true hlt.le, Bool.true_and]
  · rw [BitVec.shiftLeft_eq_zero le_rfl]
    rfl
  · rw [if_neg (by omega), if_neg (by omega), BitVec.shiftLeft_eq_zero hgt.le, decide_eq_false (by omega),
      Bool.false_and]
    rfl

theorem shiftByReg_lsr_pos : shiftByReg .lsr m n c = ⟨m >>> n, m.getLsbD (n - 1)⟩ := by
  simp only [shiftByReg, if_neg hn.ne']
  rcases lt_trichotomy n 32 with hlt | rfl | hgt
  · rw [if_pos hlt]
  · rw [BitVec.ushiftRight_eq_zero le_rfl]
    rfl
  · rw [if_neg (by omega), if_neg (by omega), BitVec.ushiftRight_eq_zero hgt.le, BitVec.getLsbD_of_ge m _ (by omega)]
    rfl

theorem shiftByReg_asr_pos : shiftByReg .asr m n c = ⟨m.sshiftRight n, m.getLsbD (min n 32 - 1)⟩ := by
  simp only [shiftByReg, if_neg hn.ne']
  by_cases hlt : n < 32
  · rw [if_pos hlt, Nat.min_eq_left hlt.le]
  · rw [if_neg hlt, Nat.min_eq_right (by omega), sshiftRight_of_le m (n := n) (by omega)]

theorem shiftByReg_ror_pos : shiftByReg .ror m n c = ⟨m.rotateRight n, m.getLsbD ((n + 31) % 32)⟩ := by
  simp only [shiftByReg, if_neg hn.ne']
  by_cases hmod : n % 32 = 0
  · have hbit : (n + 31) % 32 = 31 := by omega
    rw [if_pos hmod, rotateRight_of_mod_eq_zero m hmod, hbit]
  · have hbit : (n + 31) % 32 = n % 32 - 1 := by omega
    rw [if_neg hmod, BitVec.rotateRight_mod_eq_rotateRight, hbit]

end

/-- Settles O18: for an amount above 0 each row of the table is the plain shift by that amount. -/
theorem registerShifts : Obligations.RegisterShifts := by
  unfold Obligations.RegisterShifts
  refine ⟨op2ShiftReg_eq, fun m n c _ => ⟨?_, fun hn => ?_⟩⟩
  · rintro ty rfl
    exact shiftByReg_zero m c ty
  · rw [shiftByReg_lsl_pos m c hn, shiftByReg_lsr_pos m c hn, shiftByReg_asr_pos m c hn, shiftByReg_ror_pos m c hn]
    exact ⟨shiftLeft_toNat m n, rfl, ushiftRight_toNat m n, rfl, sshiftRight_toInt m n, rfl,
      fun k hk => rotateRight_getLsbD m n hk, rfl⟩

end Sys2Proof.Machine
end

section
/-!
PROOFS. 40_arm_data_processing.md: the sixteen operations. Each of the 48 rows is the guard of its condition around one shared body,
`dpBody`; what the body does is said once, for a destination other than R15 and for R15.
-/

namespace Sys2Proof.Machine

/-! ## The rows -/

/-- What a data-processing row does once it runs (R250): a comparison writes only the flags. -/
def dpBody (op : DpOp) (f : Bool) (rd : Reg) (a : Word) (b : Shifted) (s : State) : Result :=
  if op.compares then compareOp op a b s else dataOp op f rd a b s

section
variable (op : DpOp) (c : Cond) (f : Bool) (rn rd : Reg) (s : State)

theorem cond_dpImm (o : RotImm) : Instr.cond (dpImm op c f rn rd o) = some c := by cases op <;> rfl
theorem cond_dpShiftImm (o : ShiftImm) : Instr.cond (dpShiftImm op c f rn rd o) = some c := by cases op <;> rfl
theorem cond_dpShiftReg (o : ShiftReg) : Instr.cond (dpShiftReg op c f rn rd o) = some c := by cases op <;> rfl

/-- MOV and MVN have no first operand, and their result depends on none: so one body serves all sixteen. -/
theorem exec_dpImm (o : RotImm) : exec (dpImm op c f rn rd o) s =
    armGuard c (dpImm op c f rn rd o) s fun t => dpBody op f rd (t.reg rn) (op2Imm t o) t := by cases op <;> rfl

theorem exec_dpShiftImm (o : ShiftImm) : exec (dpShiftImm op c f rn rd o) s =
    armGuard c (dpShiftImm op c f rn rd o) s fun t => dpBody op f rd (t.reg rn) (op2ShiftImm t o) t := by
  cases op <;> rfl

theorem exec_dpShiftReg (o : ShiftReg) : exec (dpShiftReg op c f rn rd o) s =
    armGuard c (dpShiftReg op c f rn rd o) s fun t => dpBody op f rd (t.reg rn) (op2ShiftReg t o) t := by
  cases op <;> rfl

end

section
variable {op : DpOp} {c : Cond} {f : Bool} {rn rd : Reg} {s : State}

theorem run_dpImm {o : RotImm} (h : Runs (dpImm op c f rn rd o) s) :
    exec (dpImm op c f rn rd o) s = dpBody op f rd (s.reg rn) (op2Imm s o) (s.executed true) := by
  rw [exec_dpImm, armGuard_runs (cond_dpImm ..) h, State.executed_reg, op2Imm_executed]

theorem run_dpShiftImm {o : ShiftImm} (h : Runs (dpShiftImm op c f rn rd o) s) :
    exec (dpShiftImm op c f rn rd o) s = dpBody op f rd (s.reg rn) (op2ShiftImm s o) (s.executed true) := by
  rw [exec_dpShiftImm, armGuard_runs (cond_dpShiftImm ..) h, State.executed_reg, op2ShiftImm_executed]

theorem run_dpShiftReg {o : ShiftReg} (h : Runs (dpShiftReg op c f rn rd o) s) :
    exec (dpShiftReg op c f rn rd o) s = dpBody op f rd (s.reg rn) (op2ShiftReg s o) (s.executed true) := by
  rw [exec_dpShiftReg, armGuard_runs (cond_dpShiftReg ..) h, State.executed_reg, op2ShiftReg_executed]

end

/-! ## A destination other than R15 -/

section
variable {i : Instr} {s : State} {op : DpOp} {f : Bool} {a : Word} {b : Shifted}

theorem dpBody_of_compares (hop : op.compares = true) (rd : Reg) : dpBody op f rd a b s = compareOp op a b s := if_pos hop

theorem dpBody_of_writes (hop : op.compares = false) (rd : Reg) : dpBody op f rd a b s = dataOp op f rd a b s := by
  rw [dpBody, hop, if_neg Bool.false_ne_true]

/-- The shared body into a register other than R15, or as a comparison. -/
theorem dpBody_done {rd : Reg} (hrd : rd ≠ 15#4) (h : exec i s = dpBody op f rd a b (s.executed true)) :
    DataDone i s op f rd a b.val b.carry := by
  cases hop : op.compares with
  | true => exact compareOp_done hop (h.trans (dpBody_of_compares hop rd))
  | false => exact dataOp_done hrd hop (h.trans (dpBody_of_writes hop rd))

end

/-- Settles O13: the rows' body is `dpBody`. -/
theorem dpImmediate : Obligations.DpImmediate := by
  unfold Obligations.DpImmediate
  intro op c f rn rd o s hrd h
  exact dpBody_done hrd (run_dpImm h)

/-- Settles O14: as O13. -/
theorem dpShiftedByImmediate : Obligations.DpShiftedByImmediate := by
  unfold Obligations.DpShiftedByImmediate
  intro op c f rn rd o s hrd h
  exact dpBody_done hrd (run_dpShiftImm h)

/-- Settles O15: as O13. -/
theorem dpShiftedByRegister : Obligations.DpShiftedByRegister := by
  unfold Obligations.DpShiftedByRegister
  intro op c f rn rd o s hrd h
  exact dpBody_done hrd (run_dpShiftReg h)

/-! ## R15 as the destination -/

theorem State.exceptionReturn_illegalMode {s : State} {p v : Word} (h : s.spsrOf s.mode = some p)
    (hl : legalMode (modeOf p) = false) : s.exceptionReturn v = .refused (.unpredictable .illegalMode) := by
  simp [State.exceptionReturn, h, hl]

/-- Where `dataOp` to R15 goes: with S the exception return, without it a jump, if the result is aligned (R252). -/
theorem dataOp_pc (op : DpOp) (f : Bool) (a : Word) (b : Shifted) (s : State) :
    dataOp op f 15#4 a b s =
      if f then s.exceptionReturn (alu op s.cpsr a b.val b.carry).res
      else if (alu op s.cpsr a b.val b.carry).res.extractLsb' 0 2 = 0#2 then
        .next (s.branchTo (alu op s.cpsr a b.val b.carry).res)
      else .refused (.unpredictable .pcUnaligned) := rfl

section
variable {i : Instr} {s : State} {v : Word}

/-- A jump of an executed instruction writes the PC alone. -/
theorem jumpDone_branchTo (h : exec i s = .next ((s.executed true).branchTo v)) : JumpDone i s v s.cpsr [] :=
  ⟨_, h, rfl, rfl, by simp, OnlyRegs.of_eq rfl, SameOutside.rfl' s⟩

/-- An exception return writes the PC and the CPSR alone (60_exceptions.md R700). -/
theorem jumpDone_exceptionReturn {p : Word} (h : exec i s = (s.executed true).exceptionReturn v)
    (hp : s.spsrOf s.mode = some p) (hl : legalMode (modeOf p) = true) : JumpDone i s (returnTarget p v) p [] :=
  ⟨_, h.trans (State.exceptionReturn_done hp hl), rfl, rfl, by simp, OnlyRegs.of_eq rfl, SameOutside.rfl' s⟩

end

/-- Either operand form into R15 runs `dataOp` on its operand, whose carry no clause of R252 uses. -/
theorem run_dpToPc {op : DpOp} {c : Cond} {f : Bool} {rn : Reg} {i : Instr} {b : Word} {s : State}
    (hop : op.compares = false)
    (hi : (∃ o, i = dpImm op c f rn 15#4 o ∧ b = (op2Imm s o).val) ∨
      (∃ o, i = dpShiftImm op c f rn 15#4 o ∧ b = (op2ShiftImm s o).val))
    (hr : Runs i s) : ∃ sh, exec i s = dataOp op f 15#4 (s.reg rn) ⟨b, sh⟩ (s.executed true) := by
  rcases hi with ⟨o, rfl, rfl⟩ | ⟨o, rfl, rfl⟩
  · exact ⟨(op2Imm s o).carry, (run_dpImm hr).trans (dpBody_of_writes hop _)⟩
  · exact ⟨(op2ShiftImm s o).carry, (run_dpShiftImm hr).trans (dpBody_of_writes hop _)⟩

/-- Settles O16: one clause for each way `dataOp_pc` and the exception return can go. -/
theorem dpToPc : Obligations.DpToPc := by
  unfold Obligations.DpToPc
  intro op c f rn i b s hop hi hr
  obtain ⟨sh, hexec⟩ := run_dpToPc hop hi hr
  rw [dataOp_pc, State.executed_cpsr] at hexec
  refine ⟨_, alu_result op s.cpsr (s.reg rn) b sh, ?_, ?_, ?_, ?_, ?_⟩
  · rintro rfl haligned
    exact jumpDone_branchTo (hexec.trans (if_pos haligned))
  · rintro rfl hunaligned
    exact hexec.trans (if_neg hunaligned)
  · rintro p rfl hp hl
    exact jumpDone_exceptionReturn hexec hp hl
  · rintro p rfl hp hl
    exact hexec.trans (State.exceptionReturn_illegalMode hp hl)
  · rintro rfl hp
    exact hexec.trans (State.exceptionReturn_noSpsr hp)

end Sys2Proof.Machine
end

section
/-!
PROOFS. 41_arm_multiply.md: the multiplies. `mulOp_done` and `mulLongOp_done` say what the shared bodies do with a result; here are
what the rules on operands give them (R300, R301) and that the words the rows compute are the products and sums of the rules.
-/

namespace Sys2Proof.Machine

/-! ## The destinations -/

theorem rd_ne_pc_of_mulDefect {rd rn rs rm : Reg} (h : firstDefect (mulDefect rd rn rs rm) = none) : rd ≠ 15#4 := by
  obtain ⟨hpc, -⟩ := firstDefect_cons.mp h
  simp only [Bool.or_eq_false_iff, isPc_eq_false, and_assoc] at hpc
  obtain ⟨hrd, -⟩ := hpc
  exact hrd

/-- The two destinations of a long multiply are two registers, neither of them R15. -/
theorem dests_of_mulLongDefect {hi lo rs rm : Reg} (h : firstDefect (mulLongDefect hi lo rs rm) = none) :
    hi ≠ 15#4 ∧ lo ≠ 15#4 ∧ hi ≠ lo := by
  obtain ⟨hpc, hoverlap⟩ := firstDefect_cons.mp h
  obtain ⟨hov, -⟩ := firstDefect_cons.mp hoverlap
  simp only [Bool.or_eq_false_iff, isPc_eq_false, and_assoc] at hpc
  simp only [Bool.or_eq_false_iff, beq_eq_false_iff_ne, and_assoc] at hov
  obtain ⟨hhi, hlo, -⟩ := hpc
  obtain ⟨hne, -⟩ := hov
  exact ⟨hhi, hlo, hne⟩

/-! ## MUL and MLA -/

/-- The 32-bit product and sum are those of the naturals modulo 2^32. -/
theorem mul_add_toNat (a b n : Word) : (a * b + n).toNat = (a.toNat * b.toNat + n.toNat) % 2 ^ 32 := by
  rw [BitVec.toNat_add, BitVec.toNat_mul, Nat.mod_add_mod]

/-- Settles O19: `mulOp_done` at each row's destination and result. -/
theorem multiply : Obligations.Multiply := by
  unfold Obligations.Multiply
  refine fun s => ⟨?mul, ?mla, ?tMul⟩
  case mul =>
    intro c f rd rs rm h
    obtain ⟨-, hdefect⟩ := firstDefect_cons.mp h.checks
    exact mulOp_done (rd_ne_pc_of_mulDefect hdefect) (BitVec.toNat_mul ..) (run_mul h)
  case mla =>
    intro c f rd rn rs rm h
    exact mulOp_done (rd_ne_pc_of_mulDefect h.checks) (mul_add_toNat ..) (run_mla h)
  case tMul =>
    intro rs rd h
    exact mulOp_done (lowReg_ne rd) (BitVec.toNat_mul ..) (run_tMul h)

/-! ## The long multiplies -/

/-- No bit of an unsigned product is lost in 64 bits. -/
theorem umul_toNat (a b : Word) : (umul a b).toNat = a.toNat * b.toNat := by
  have hlt : a.toNat * b.toNat < 2 ^ 64 := BitVec.toNat_mul_toNat_lt
  rw [umul, BitVec.toNat_mul, BitVec.toNat_setWidth_of_le (by decide), BitVec.toNat_setWidth_of_le (by decide),
    Nat.mod_eq_of_lt hlt]

/-- A signed product is the exact one taken modulo 2^64. -/
theorem smul_eq_ofInt (a b : Word) : smul a b = BitVec.ofInt 64 (a.toInt * b.toInt) :=
  (BitVec.ofInt_mul a.toInt b.toInt).symm

/-- The accumulator pair is RdHi times 2^32 plus RdLo. -/
theorem accPair_toNat (s : State) (hi lo : Reg) :
    (accPair s hi lo).toNat = (s.reg hi).toNat * 2 ^ 32 + (s.reg lo).toNat := by
  rw [accPair, BitVec.toNat_append, ← Nat.shiftLeft_add_eq_or_of_lt (s.reg lo).isLt, Nat.shiftLeft_eq]

section
variable {s : State} {hi lo rs rm : Reg} {p : BitVec 64}

theorem umul_eq_of_toNat (hp : p.toNat = (s.reg rm).toNat * (s.reg rs).toNat) : umul (s.reg rm) (s.reg rs) = p :=
  BitVec.eq_of_toNat_eq ((umul_toNat ..).trans hp.symm)

theorem umul_add_accPair_eq_of_toNat
    (hp : p.toNat = ((s.reg rm).toNat * (s.reg rs).toNat + ((s.reg hi).toNat * 2 ^ 32 + (s.reg lo).toNat)) % 2 ^ 64) :
    umul (s.reg rm) (s.reg rs) + accPair s hi lo = p := by
  apply BitVec.eq_of_toNat_eq
  rw [BitVec.toNat_add, umul_toNat, accPair_toNat, hp]

theorem smul_eq_of_toInt (hp : p.toInt = (s.reg rm).toInt * (s.reg rs).toInt) : smul (s.reg rm) (s.reg rs) = p := by
  rw [smul_eq_ofInt, ← hp, BitVec.ofInt_toInt]

theorem smul_add_accPair_eq_of_ofInt
    (hp : p = BitVec.ofInt 64 ((s.reg rm).toInt * (s.reg rs).toInt + (s.reg hi ++ s.reg lo).toInt)) :
    smul (s.reg rm) (s.reg rs) + accPair s hi lo = p := by
  rw [hp, BitVec.ofInt_add, ← smul_eq_ofInt, BitVec.ofInt_toInt, accPair]

end

/-- `mulLongOp_done` from the checks of the row, for a result shown equal to `p`. -/
theorem mulLong_done {i : Instr} {s : State} {f : Bool} {hi lo rs rm : Reg} {p q : BitVec 64} (hq : q = p)
    (hdefect : firstDefect (mulLongDefect hi lo rs rm) = none) (h : exec i s = mulLongOp f hi lo q (s.executed true)) :
    MulLongDone i s f hi lo p := by
  subst hq
  obtain ⟨hhi, hlo, hne⟩ := dests_of_mulLongDefect hdefect
  exact mulLongOp_done hhi hlo hne h

/-- Settles O20: the result of each row is the 64-bit word that its rule names. -/
theorem longMultiply : Obligations.LongMultiply := by
  unfold Obligations.LongMultiply
  refine fun s c f hi lo rs rm => ⟨?umull, ?umlal, ?smull, ?smlal⟩
  case umull =>
    intro h p hp
    exact mulLong_done (umul_eq_of_toNat hp) h.checks (run_umull h)
  case umlal =>
    intro h p hp
    exact mulLong_done (umul_add_accPair_eq_of_toNat hp) h.checks (run_umlal h)
  case smull =>
    intro h p hp
    exact mulLong_done (smul_eq_of_toInt hp) h.checks (run_smull h)
  case smlal =>
    intro h p hp
    exact mulLong_done (smul_add_accPair_eq_of_ofInt hp) h.checks (run_smlal h)

end Sys2Proof.Machine
end

section
/-!
PROOFS. 42_arm_status_register.md: MRS and MSR. What MSR takes from its operand is said bit by bit, once for the three masks it uses;
the body `writeStatus` then has one equation for each way it can go.
-/

namespace Sys2Proof.Machine

/-! ## MRS -/

theorem rd_ne_pc_of_mrs {c : Cond} {r : Bool} {sbo rd hi lo : Reg} {s : State} (h : Runs (.mrs c r sbo rd hi lo) s) :
    rd ≠ 15#4 := by
  have hd := h.checks
  simp only [Instr.checks, firstDefect_cons, isPc_eq_false] at hd
  tauto

/-- What an MRS that runs reads, if the mode has it (R321). -/
theorem readStatus_of_some {r : Bool} {rd : Reg} {s : State} {p : Word}
    (hp : (if r then s.spsrOf s.mode else some s.cpsr) = some p) : readStatus r rd s = .next (s.setReg rd p).advance := by
  cases r with
  | true =>
    rw [if_pos rfl] at hp
    simp [readStatus, hp]
  | false =>
    obtain rfl : s.cpsr = p := Option.some.inj hp
    rfl

theorem readStatus_of_noSpsr {rd : Reg} {s : State} (h : s.spsrOf s.mode = none) :
    readStatus true rd s = .refused (.unpredictable .noSpsr) := by
  simp [readStatus, h]

/-- Settles O21: MRS is a write of one register with the value it reads. The shared body has the plain name. -/
theorem StatusRegister.readStatus : Obligations.ReadStatus := by
  unfold Obligations.ReadStatus
  intro c r rd s h
  refine ⟨?_, fun p hp => ?_⟩
  · rintro ⟨rfl, hnone⟩
    exact (run_mrs h).trans (readStatus_of_noSpsr hnone)
  · refine ⟨_, (run_mrs h).trans (readStatus_of_some (s := s.executed true) hp), ?_, ?_, ?_, ?_, sameOutside_setReg_advance s rd p⟩
    · exact bankReg_setReg_executed s rd p (rd_ne_pc_of_mrs h)
    · exact onlyRegs_of_regs (onlyRegs_setReg_executed s rd p) rfl
    · simp
    · simp [FallsThrough]

/-! ## Which bits MSR writes -/

/-- `byte_mask` spreads each bit of the field over its byte (R323). -/
theorem byteMask_getLsbD : ∀ (m : BitVec 4), ∀ k < 32, (byteMask m).getLsbD k = m.getLsbD (k / 8) := by decide

theorem userMask_getLsbD : ∀ k < 32, userMask.getLsbD k = decide (28 ≤ k) := by decide
theorem privMask_getLsbD : ∀ k < 32, privMask.getLsbD k = (k == 7 || k == 6 || decide (k < 5)) := by decide
theorem stateMask_getLsbD : ∀ k < 32, stateMask.getLsbD k = (k == 5) := by decide

theorem mergePsr_getLsbD (p v m : Word) {k : Nat} (hk : k < 32) :
    (mergePsr p v m).getLsbD k = if m.getLsbD k then v.getLsbD k else p.getLsbD k := by
  rw [mergePsr, BitVec.getLsbD_or, BitVec.getLsbD_and, BitVec.getLsbD_and, BitVec.getLsbD_not]
  cases m.getLsbD k <;> simp [hk]

/-- Two names of one choice of bits. -/
theorem BitsFrom.congr {p v q : Word} {sel sel' : Nat → Bool} (h : BitsFrom p v q sel) (hs : ∀ k, sel k = sel' k) :
    BitsFrom p v q sel' := funext hs ▸ h

/-- A merged PSR takes the bits of its mask. -/
theorem bitsFrom_mergePsr {p v m : Word} {sel : Nat → Bool} (h : ∀ k < 32, m.getLsbD k = sel k) :
    BitsFrom p v (mergePsr p v m) sel := fun k hk => by rw [mergePsr_getLsbD p v m hk, h k hk]

section
variable (mask : BitVec 4) {k : Nat} (hk : k < 32)
include hk

theorem flagMask_getLsbD : (byteMask mask &&& userMask).getLsbD k = flagBits mask k := by
  rw [BitVec.getLsbD_and, byteMask_getLsbD mask k hk, userMask_getLsbD k hk, flagBits]
  by_cases h : 28 ≤ k
  · rw [show k / 8 = 3 by omega]
  · simp [h]

theorem controlMask_getLsbD : (byteMask mask &&& privMask).getLsbD k = controlBits mask k := by
  rw [BitVec.getLsbD_and, byteMask_getLsbD mask k hk, privMask_getLsbD k hk, controlBits]
  by_cases h : k < 8
  · rw [show k / 8 = 0 by omega]
  · simp [beq_eq_false_iff_ne.mpr (show k ≠ 7 by omega), beq_eq_false_iff_ne.mpr (show k ≠ 6 by omega), show ¬ k < 5 by omega]

theorem thumbMask_getLsbD : (byteMask mask &&& stateMask).getLsbD k = stateBit mask k := by
  rw [BitVec.getLsbD_and, byteMask_getLsbD mask k hk, stateMask_getLsbD k hk, stateBit]
  by_cases h : k = 5
  · rw [h]
  · rw [beq_eq_false_iff_ne.mpr h, Bool.and_false, Bool.and_false]

/-- The bits of the CPSR that a privileged MSR writes. -/
theorem cpsrMask_getLsbD :
    (byteMask mask &&& (userMask ||| privMask)).getLsbD k = (flagBits mask k || controlBits mask k) := by
  rw [BitVec.and_or_distrib_left, BitVec.getLsbD_or, flagMask_getLsbD mask hk, controlMask_getLsbD mask hk]

/-- The bits of an SPSR that MSR writes. -/
theorem spsrMask_getLsbD : (byteMask mask &&& (userMask ||| privMask ||| stateMask)).getLsbD k =
    (flagBits mask k || controlBits mask k || stateBit mask k) := by
  rw [BitVec.and_or_distrib_left, BitVec.getLsbD_or, cpsrMask_getLsbD mask hk, thumbMask_getLsbD mask hk]

end

/-- The CPSR after an MSR that may write the control bits (R324). -/
def msrCpsr (mask : BitVec 4) (p v : Word) : Word := mergePsr p v (byteMask mask &&& (userMask ||| privMask))

theorem msrCpsr_bits (mask : BitVec 4) (p v : Word) :
    BitsFrom p v (msrCpsr mask p v) fun k => flagBits mask k || controlBits mask k :=
  bitsFrom_mergePsr fun _ hk => cpsrMask_getLsbD mask hk

@[simp] theorem msrCpsr_bitT (mask : BitVec 4) (p v : Word) : bitT (msrCpsr mask p v) = bitT p := msr_bitT _ _ _ _ (by decide)

/-- The mode bits are written together. -/
theorem msrCpsr_modeOf (mask : BitVec 4) (p v : Word) :
    modeOf (msrCpsr mask p v) = if mask.getLsbD 0 then modeOf v else modeOf p := by
  refine BitVec.eq_of_getLsbD_eq fun k hk => ?_
  have hsel : (flagBits mask k || controlBits mask k) = mask.getLsbD 0 := by
    simp [flagBits, controlBits, hk, show ¬ 28 ≤ k by omega]
  rw [modeOf, BitVec.getLsbD_extractLsb', Nat.zero_add, msrCpsr_bits mask p v k (by omega)]
  simp only [hsel]
  split <;> simp [modeOf]

/-- The operand would set T, and the mask selects its byte. -/
def setsThumb (mask : BitVec 4) (v : Word) : Bool := mask.getLsbD 0 && v.getLsbD 5

theorem setsThumb_iff (mask : BitVec 4) (v : Word) :
    v &&& stateMask &&& byteMask mask ≠ 0#32 ↔ setsThumb mask v = true := by
  have hbit : ∀ k < 32, (v &&& stateMask &&& byteMask mask).getLsbD k = (v.getLsbD k && stateBit mask k) := fun k hk => by
    rw [BitVec.and_assoc, BitVec.and_comm stateMask, BitVec.getLsbD_and, thumbMask_getLsbD mask hk]
  have h5 : (v &&& stateMask &&& byteMask mask).getLsbD 5 = setsThumb mask v := by
    rw [hbit 5 (by decide), stateBit, setsThumb, beq_self_eq_true, Bool.and_true, Bool.and_comm]
  refine ⟨fun h => ?_, fun h hzero => ?_⟩
  · by_contra hn
    refine h (BitVec.eq_of_getLsbD_eq fun k hk => ?_)
    by_cases hk5 : k = 5
    · rw [hk5, h5, Bool.eq_false_of_not_eq_true hn, BitVec.getLsbD_zero]
    · rw [hbit k hk, stateBit, beq_eq_false_iff_ne.mpr hk5, Bool.and_false, Bool.and_false, BitVec.getLsbD_zero]
  · rw [hzero, h] at h5
    cases h5

/-! ## Where MSR goes -/

section
variable {mask : BitVec 4} {v : Word} {s : State}

/-- Both operand forms run the body on the operand's value. -/
theorem run_msr {c : Cond} {r : Bool} {i : Instr}
    (hi : (∃ rm, i = .msrReg c r mask 15#4 0#4 rm ∧ v = s.reg rm) ∨ (∃ o, i = .msrImm c r mask 15#4 o ∧ v = RotImm.value o))
    (h : Runs i s) : exec i s = writeStatus r mask v (s.executed true) := by
  rcases hi with ⟨rm, rfl, rfl⟩ | ⟨o, rfl, rfl⟩
  · exact run_msrReg h
  · exact run_msrImm h

theorem writeStatus_noSpsr (h : s.spsrOf s.mode = none) :
    writeStatus true mask v s = .refused (.unpredictable .noSpsr) := by
  simp [writeStatus, h]

theorem writeStatus_spsr {p : Word} (h : s.spsrOf s.mode = some p) : writeStatus true mask v s =
    .next (s.setSpsr s.mode (mergePsr p v (byteMask mask &&& (userMask ||| privMask ||| stateMask)))).advance := by
  simp [writeStatus, h]

/-- In User mode outside debug state MSR writes the flags (R325). -/
theorem writeStatus_user (hm : s.mode = usrMode) (hd : s.dbg.inDebug = false) : writeStatus false mask v s =
    .next (s.setCpsr (mergePsr s.cpsr v (byteMask mask &&& userMask))).advance := by
  have hp : s.privileged = false := by simp [State.privileged, hm]
  simp [writeStatus, State.mayWriteControl, hp, hd]

/-- A privileged MSR that would set T is refused (R326). -/
theorem writeStatus_setThumb (hm : s.mode ≠ usrMode) (h : setsThumb mask v = true) :
    writeStatus false mask v s = .refused (.unpredictable .setThumb) := by
  have hp : s.privileged = true := by simp [State.privileged, hm]
  rw [writeStatus, if_neg Bool.false_ne_true, if_pos ⟨hp, (setsThumb_iff mask v).mpr h⟩]

/-- Elsewhere MSR writes the flags and the control bits, if the mode it leaves is one of the seven. -/
theorem writeStatus_control (hw : s.mode ≠ usrMode ∨ s.dbg.inDebug = true)
    (ht : s.mode = usrMode ∨ setsThumb mask v = false) : writeStatus false mask v s =
    if legalMode (modeOf (msrCpsr mask s.cpsr v)) then .next (s.setCpsr (msrCpsr mask s.cpsr v)).advance
    else .refused (.unpredictable .illegalMode) := by
  have hmay : s.mayWriteControl = true := by simpa [State.mayWriteControl, State.privileged] using hw
  have hno : ¬ (s.privileged = true ∧ v &&& stateMask &&& byteMask mask ≠ 0#32) := by
    rw [setsThumb_iff]
    rintro ⟨hp, hset⟩
    rcases ht with hm | hn
    · simp [State.privileged, hm] at hp
    · exact Bool.false_ne_true (hn.symm.trans hset)
  rw [writeStatus, if_neg Bool.false_ne_true, if_neg hno, if_pos hmay]
  rfl

/-- An instruction that writes a CPSR with the T bit as before, and nothing else. -/
theorem cpsrDone_setCpsr {i : Instr} {p : Word} {q : Word → Prop} (h : exec i s = .next ((s.executed true).setCpsr p).advance)
    (hT : bitT p = bitT s.cpsr) (hq : q p) : CpsrDone i s q := by
  have hw : ((s.executed true).setCpsr p).width = s.width := width_of_cpsr hT
  refine ⟨_, h, hq, rfl, ?_, ?_⟩
  · simp [FallsThrough, hw]
  · simp [SameOutside]

end

/-- Settles O22: one clause for each way `writeStatus` can go. -/
theorem writeCpsr : Obligations.WriteCpsr := by
  unfold Obligations.WriteCpsr
  intro c mask i v s hi hr
  have hexec := run_msr hi hr
  refine ⟨fun hm hd => ?user, fun hm h0 h5 => ?setThumb,
    fun hw => ⟨fun h0 hl => ?flags, fun h0 ht => ⟨fun hl => ?control, fun hl => ?illegal⟩⟩⟩
  case user =>
    exact cpsrDone_setCpsr (hexec.trans (writeStatus_user (s := s.executed true) hm hd)) (msr_bitT _ _ _ _ (by decide))
      (bitsFrom_mergePsr fun k hk => flagMask_getLsbD mask hk)
  case setThumb =>
    exact hexec.trans (writeStatus_setThumb (s := s.executed true) hm (by rw [setsThumb, h0, h5]; rfl))
  case flags =>
    have hmode : modeOf (msrCpsr mask s.cpsr v) = s.mode := by rw [msrCpsr_modeOf, h0]; rfl
    have hrun := writeStatus_control (mask := mask) (v := v) (s := s.executed true) hw (.inr (by rw [setsThumb, h0]; rfl))
    refine cpsrDone_setCpsr (hexec.trans (hrun.trans (if_pos (by rwa [State.executed_cpsr, hmode])))) (msrCpsr_bitT ..) ?_
    exact (msrCpsr_bits mask s.cpsr v).congr fun k => by rw [controlBits, h0, Bool.false_and, Bool.or_false]
  all_goals
    have hmode : modeOf (msrCpsr mask s.cpsr v) = modeOf v := by rw [msrCpsr_modeOf, h0]; rfl
    have hrun := writeStatus_control (mask := mask) (v := v) (s := s.executed true) hw
      (ht.imp_right fun h5 => by rw [setsThumb, h5, Bool.and_false])
    rw [State.executed_cpsr, hmode] at hrun
  case control => exact cpsrDone_setCpsr (hexec.trans (hrun.trans (if_pos hl))) (msrCpsr_bitT ..) (msrCpsr_bits mask s.cpsr v)
  case illegal => exact hexec.trans (hrun.trans (if_neg (by rw [hl]; exact Bool.false_ne_true)))

/-! ## MSR to an SPSR -/

/-- Reading the SPSRs after one of them is written: that one, and the others. -/
theorem State.setSpsr_reads {s : State} {m : BitVec 5} {p : Word} (q : Word) (h : s.spsrOf m = some p) :
    (s.setSpsr m q).spsrOf m = some q ∧
      ∀ k : Fin 5, spsrIndex m ≠ some k → (s.setSpsr m q).spsr.get k = s.spsr.get k := by
  obtain ⟨j, hj, -⟩ := Option.map_eq_some_iff.mp h
  refine ⟨?_, fun k hk => ?_⟩
  · simp [State.spsrOf, State.setSpsr, hj, Vector.get_eq_getElem]
  · have hne : j ≠ k := fun he => hk (by rw [hj, he])
    simp only [State.setSpsr, hj]
    rw [Vector.get_eq_getElem, Vector.getElem_set_ne (h := fun he => hne (Fin.ext he))]
    rfl

/-- Settles O23: MSR is a write of one SPSR. -/
theorem writeSpsr : Obligations.WriteSpsr := by
  unfold Obligations.WriteSpsr
  intro c mask i v s hi hr
  have hexec := run_msr hi hr
  refine ⟨fun hnone => hexec.trans (writeStatus_noSpsr (s := s.executed true) hnone), fun p hp => ?_⟩
  obtain ⟨hread, hothers⟩ := State.setSpsr_reads (s := s.executed true)
    (mergePsr p v (byteMask mask &&& (userMask ||| privMask ||| stateMask))) hp
  refine ⟨_, _, hexec.trans (writeStatus_spsr (s := s.executed true) hp), hread,
    bitsFrom_mergePsr fun k hk => spsrMask_getLsbD mask hk, hothers, ?_, ?_, ?_, ?_⟩
  · simp
  · simp
  · simp [FallsThrough, State.width]
  · simp [SameWorld]

end Sys2Proof.Machine
end

section
/-!
PROOFS. 42_arm_status_register.md R325, 60_exceptions.md R675, R720: what a program in User mode can reach. Each operation of the core
that such a program comes to keeps it confined; each shared body then leaves it confined or enters one of three exceptions.
-/

namespace Sys2Proof.Machine

/-! ## Confinement -/

/-- `t` is in User mode with the interrupt masks, the SPSRs, the banked registers of the other modes and the input pins of `s`. -/
structure Confined (s t : State) : Prop where
  mode : t.mode = usrMode
  maskI : maskI t.cpsr = maskI s.cpsr
  maskF : maskF t.cpsr = maskF s.cpsr
  spsr : t.spsr = s.spsr
  banked : ∀ k : Fin 30, 15 ≤ k.val → t.regs.get k = s.regs.get k
  pins : t.pins = s.pins

section
variable {s t : State}

theorem Confined.start (hm : s.mode = usrMode) : Confined s s := ⟨hm, rfl, rfl, rfl, fun _ _ => rfl, rfl⟩

/-- A state that agrees with `t` in what confinement reads. -/
theorem Confined.of_eq {u : State} (h : Confined s t) (hc : u.cpsr = t.cpsr := by simp) (hr : u.regs = t.regs := by simp)
    (hs : u.spsr = t.spsr := by simp) (hp : u.pins = t.pins := by simp) : Confined s u where
  mode := by rw [State.mode, hc]; exact h.mode
  maskI := by rw [hc]; exact h.maskI
  maskF := by rw [hc]; exact h.maskF
  spsr := hs.trans h.spsr
  banked := by rw [hr]; exact h.banked
  pins := hp.trans h.pins

/-! ### Registers and the CPSR -/

/-- A register of User mode is none of another mode's bank. -/
theorem Confined.setBankReg (h : Confined s t) (r : Reg) (v : Word) : Confined s (t.setBankReg usrMode r v) where
  mode := by rw [State.setBankReg_mode]; exact h.mode
  maskI := by rw [State.setBankReg_cpsr]; exact h.maskI
  maskF := by rw [State.setBankReg_cpsr]; exact h.maskF
  spsr := by rw [State.setBankReg_spsr]; exact h.spsr
  banked k hk := by
    rw [State.get_setBankReg, if_neg, h.banked k hk]
    rintro ⟨hr, rfl⟩
    exact absurd (bankIndex_usr_lt r hr) (Nat.not_lt.mpr hk)
  pins := by rw [State.setBankReg_pins]; exact h.pins

theorem Confined.setReg (h : Confined s t) (r : Reg) (v : Word) : Confined s (t.setReg r v) := by
  rw [State.setReg, h.mode]
  exact h.setBankReg r v

theorem Confined.writeBack (h : Confined s t) (wb : Option (Reg × Word)) : Confined s (t.writeBack wb) := by
  cases wb with
  | none => exact h
  | some x => exact h.setReg x.1 x.2

/-- A CPSR with the mode and the interrupt masks of the one before. -/
theorem Confined.setCpsr (h : Confined s t) {p : Word} (hm : modeOf p = modeOf t.cpsr) (hi : Machine.maskI p = Machine.maskI t.cpsr)
    (hf : Machine.maskF p = Machine.maskF t.cpsr) : Confined s (t.setCpsr p) where
  mode := hm.trans h.mode
  maskI := hi.trans h.maskI
  maskF := hf.trans h.maskF
  spsr := h.spsr
  banked := h.banked
  pins := h.pins

theorem Confined.setNZCV (h : Confined s t) (n z c v : Bool) : Confined s (t.setCpsr (withNZCV t.cpsr n z c v)) :=
  h.setCpsr (withNZCV_modeOf ..) (withNZCV_maskI ..) (withNZCV_maskF ..)

theorem Confined.setFlags (h : Confined s t) (o : AluOut) : Confined s (t.setFlags o) := h.setNZCV ..

/-- A register and then the flags: what every multiply does. -/
theorem Confined.setReg_setNZCV (h : Confined s t) (r : Reg) (x : Word) (n z c v : Bool) :
    Confined s ((t.setReg r x).setCpsr (withNZCV t.cpsr n z c v)) := by
  have := (h.setReg r x).setNZCV n z c v
  rwa [State.setReg_cpsr] at this

theorem Confined.setT (h : Confined s t) (b : Bool) : Confined s (t.setCpsr (withT t.cpsr b)) :=
  h.setCpsr (withT_modeOf ..) (withT_getLsbD _ _ 7 (by decide)) (withT_getLsbD _ _ 6 (by decide))

theorem Confined.movedToArm (h : Confined s t) (rd : Reg) (v : Word) : Confined s (t.movedToArm rd v) := by
  unfold State.movedToArm
  split
  · exact h.setNZCV ..
  · exact h.setReg rd v

/-- The flags that MSR writes in User mode (R325). -/
theorem Confined.setUserFlags (h : Confined s t) (v x : Word) : Confined s (t.setCpsr (mergePsr t.cpsr v (x &&& userMask))) := by
  have hkept : ∀ k < 28, (mergePsr t.cpsr v (x &&& userMask)).getLsbD k = t.cpsr.getLsbD k := fun k hk =>
    mergePsr_getLsbD_of_mask (by omega) (by
      rw [BitVec.getLsbD_and, userMask_getLsbD k (by omega), decide_eq_false (by omega), Bool.and_false])
  exact h.setCpsr (msr_user_modeOf ..) (hkept 7 (by decide)) (hkept 6 (by decide))

/-! ### The PC and the outputs -/

theorem Confined.advance (h : Confined s t) : Confined s t.advance := h.of_eq
theorem Confined.branchTo (h : Confined s t) (a : Word) : Confined s (t.branchTo a) := h.of_eq
theorem Confined.executed (h : Confined s t) (b : Bool) : Confined s (t.executed b) := h.of_eq
theorem Confined.drawn (h : Confined s t) : Confined s t.drawn := h.of_eq

/-! ### Data accesses -/

theorem Confined.readData (h : Confined s t) (a : Word) (size : Size) (user : Bool) (b : Beat) :
    Confined s (t.readData a size user b).2 := by
  unfold State.readData
  split
  · exact h.of_eq
  split
  · exact h.drawn
  · unfold State.ddin
    dsimp only
    split <;> exact h.of_eq

theorem Confined.writeData (h : Confined s t) (a : Word) (size : Size) (v : Word) (user : Bool) (b : Beat) (late : Bool) :
    Confined s (t.writeData a size v user b late).2 := by
  unfold State.writeData
  split
  · exact h.of_eq
  split
  · exact h
  · exact iteInduction (motive := Confined s) (fun _ => h.of_eq) (fun _ => h.of_eq)

theorem Confined.othersAct (h : Confined s t) : Confined s t.othersAct := h.of_eq

theorem Confined.swapGap (h : Confined s t) : Confined s t.swapGap :=
  iteInduction (motive := Confined s) (fun _ => h) (fun _ => h.othersAct)

theorem Confined.between {α : Type} (h : Confined s t) (rest : List α) : Confined s (t.between rest) :=
  iteInduction (motive := Confined s) (fun _ => h) (fun _ => h.othersAct)

theorem Confined.readRun : ∀ (seq : Bool) (as : List Word) {t : State}, Confined s t → Confined s (Machine.readRun seq as t).2
  | _, [], _, h => h
  | seq, a :: rest, _, h => by
    have hr := h.readData a .word false ⟨false, seq, !rest.isEmpty⟩
    unfold Machine.readRun
    dsimp only
    split
    · exact hr
    · exact Confined.readRun true rest (hr.between rest)

theorem Confined.readWords (h : Confined s t) (as : List Word) : Confined s (Machine.readWords as t).2 :=
  Confined.readRun false as h

theorem Confined.writeRun : ∀ (seq late : Bool) (xs : List (Word × Word)) {t : State}, Confined s t →
    Confined s (Machine.writeRun seq late xs t).2
  | _, _, [], _, h => h
  | seq, late, (a, v) :: rest, _, h => by
    have hw := h.writeData a .word v false ⟨false, seq, !rest.isEmpty⟩ late
    unfold Machine.writeRun
    dsimp only
    split
    · exact hw
    · exact Confined.writeRun true _ rest (hw.between rest)

theorem Confined.writeWords (h : Confined s t) (xs : List (Word × Word)) : Confined s (Machine.writeWords xs t).2 :=
  Confined.writeRun false false xs h

theorem Confined.loadRegs : ∀ (xs : List (Reg × Word)) {t : State}, Confined s t → Confined s (Machine.loadRegs usrMode xs t)
  | [], _, h => h
  | (r, v) :: rest, _, h => Confined.loadRegs rest (h.setBankReg r v)

theorem Confined.freeRegs (base : Fin 30) : ∀ (rl : List Reg) {t : State}, Confined s t →
    Confined s (Machine.freeRegs usrMode base rl t)
  | [], _, h => h
  | _ :: rest, _, h =>
    iteInduction (motive := Confined s) (fun _ => Confined.freeRegs base rest h)
      (fun _ => Confined.freeRegs base rest (h.setBankReg _ _).drawn)

/-! ### Coprocessors -/

theorem Confined.answered (h : Confined s t) (l : List CpReply) : Confined s (t.passed.answered l) := h.of_eq
theorem Confined.tell (h : Confined s t) (e : CpEvent) : Confined s (t.tell e) := h.of_eq

theorem Confined.tellWords : ∀ (ws : List (Option Word)) {t : State}, Confined s t → Confined s (State.tellWords ws t)
  | some w :: rest, _, h => Confined.tellWords rest (h.tell (.loaded w))
  | none :: _, _, h => h
  | [], _, h => h

theorem Confined.copTransfer (h : Confined s t) (onDa : Option Word) (write : Bool) (v : Word) :
    Confined s (t.copTransfer onDa write v) := h.of_eq

/-! ## The exits -/

/-- Taking an exception of the running instruction: the vector is that of `s`, whose pins `t` has (R660 to R662). -/
theorem Confined.raise (h : Confined s t) (e : Exc) (link : Word) (he : e = .undefined ∨ e = .swi ∨ e = .dataAbort) :
    AtVector s (t.raise e link) := by
  obtain ⟨-, -, -, -, hmode, hT, hI, -, -, hpc⟩ := State.raise_enters t e link
  rw [h.pins] at hpc
  refine ⟨hT, hI, ?_⟩
  rcases he with rfl | rfl | rfl
  · exact .inl ⟨hmode, hpc⟩
  · exact .inr (.inl ⟨hmode, hpc⟩)
  · exact .inr (.inr ⟨hmode, hpc⟩)

theorem Confined.takeUndefined (h : Confined s t) : AtVector s t.takeUndefined := h.raise _ _ (.inl rfl)

theorem Confined.takeSwi (h : Confined s t) : AtVector s t.takeSwi := h.raise _ _ (.inr (.inl rfl))

theorem Confined.takeDataAbort (h : Confined s t) : AtVector s t.takeDataAbort :=
  Confined.raise (t := t.cancelNext) h.of_eq _ _ (.inr (.inr rfl))

/-! ## Results -/

/-- A next state, where the result is one, is confined or at a vector. -/
structure Contained (s : State) (r : Result) : Prop where
  next_cases : ∀ t, r = .next t → Confined s t ∨ AtVector s t

theorem Contained.next (h : Confined s t) : Contained s (.next t) where
  next_cases := by
    rintro _ ⟨⟩
    exact .inl h

theorem Contained.atVector (h : AtVector s t) : Contained s (.next t) where
  next_cases := by
    rintro _ ⟨⟩
    exact .inr h

theorem Contained.refused (r : Refusal) : Contained s (.refused r) where
  next_cases := by
    rintro _ ⟨⟩

/-- The failed condition only advances the PC; so the body decides. -/
theorem Contained.armGuard {c : Cond} {i : Instr} {body : State → Result} (h : Confined s t)
    (hb : Contained s (body (t.executed true))) : Contained s (armGuard c i t body) where
  next_cases u hu := by
    rcases armGuard_next hu with rfl | hu
    · exact .inl (h.executed false).advance
    · exact hb.next_cases u hu

theorem Contained.thumbGuard {i : Instr} {body : State → Result} (hb : Contained s (body (t.executed true))) :
    Contained s (thumbGuard i t body) where
  next_cases u hu := hb.next_cases u (thumbGuard_next hu)

/-! ## Data processing and multiplies -/

/-- User mode has no SPSR (R53). -/
theorem Confined.spsrOf_none (h : Confined s t) : t.spsrOf t.mode = none := by
  rw [h.mode]
  rfl

/-- There is nothing to return from in User mode (R700). -/
theorem exceptionReturn_contained (h : Confined s t) (v : Word) : Contained s (t.exceptionReturn v) := by
  rw [State.exceptionReturn_noSpsr h.spsrOf_none]
  exact .refused _

theorem dataOp_contained (h : Confined s t) (op : DpOp) (f : Bool) (rd : Reg) (a : Word) (b : Shifted) :
    Contained s (dataOp op f rd a b t) := by
  unfold dataOp
  dsimp only
  split
  · split
    · exact exceptionReturn_contained h _
    · split
      · exact .next (h.branchTo _)
      · exact .refused _
  · split
    · exact .next ((h.setReg ..).setFlags _).advance
    · exact .next (h.setReg ..).advance

theorem compareOp_contained (h : Confined s t) (op : DpOp) (a : Word) (b : Shifted) : Contained s (compareOp op a b t) :=
  .next (h.setFlags _).advance

theorem mulOp_contained (h : Confined s t) (f : Bool) (rd : Reg) (r : Word) : Contained s (mulOp f rd r t) := by
  unfold mulOp
  split
  · exact .next (h.setReg_setNZCV ..).drawn.advance
  · exact .next (h.setReg ..).advance

theorem mulLongOp_contained (h : Confined s t) (f : Bool) (rdHi rdLo : Reg) (p : BitVec 64) :
    Contained s (mulLongOp f rdHi rdLo p t) := by
  unfold mulLongOp
  dsimp only
  split
  · have hflags := (h.setReg rdHi (p.extractLsb' 32 32)).setReg_setNZCV rdLo (p.extractLsb' 0 32)
    rw [State.setReg_cpsr] at hflags
    exact .next (hflags ..).drawn.drawn.advance
  · exact .next ((h.setReg ..).setReg ..).advance

theorem thumbAlu_contained (h : Confined s t) (rd : LowReg) (o : AluOut) : Contained s (thumbAlu rd o t) :=
  .next ((h.setReg ..).setFlags _).advance

theorem thumbFlags_contained (h : Confined s t) (o : AluOut) : Contained s (thumbFlags o t) := .next (h.setFlags _).advance

theorem thumbWrite_contained (h : Confined s t) (rd : Reg) (v : Word) : Contained s (thumbWrite rd v t) := by
  unfold thumbWrite
  split
  · exact .next (h.branchTo _)
  · exact .next (h.setReg ..).advance

/-! ## Status registers -/

theorem readStatus_contained (h : Confined s t) (r : Bool) (rd : Reg) : Contained s (readStatus r rd t) := by
  cases r with
  | true =>
    rw [readStatus_of_noSpsr h.spsrOf_none]
    exact .refused _
  | false => exact .next (h.setReg ..).advance

/-- Outside debug state an MSR in User mode writes the flags, or is refused for want of an SPSR. -/
theorem writeStatus_contained (h : Confined s t) (hd : t.dbg.inDebug = false) (r : Bool) (mask : BitVec 4) (v : Word) :
    Contained s (writeStatus r mask v t) := by
  cases r with
  | true =>
    rw [writeStatus_noSpsr h.spsrOf_none]
    exact .refused _
  | false =>
    rw [writeStatus_user h.mode hd]
    exact .next (h.setUserFlags ..).advance

/-! ## Single transfers -/

theorem loadOp_contained (h : Confined s t) (k : LoadKind) (a : Word) (user : Bool) (wb : Option (Reg × Word)) (rd : Reg) :
    Contained s (loadOp k a user wb rd t) := by
  have hr := h.readData a k.size user .single
  unfold loadOp
  split
  · exact .refused _
  split
  · exact .refused _
  generalize t.readData a k.size user .single = x at hr ⊢
  rcases x with ⟨_ | w, u⟩
  · exact .atVector hr.takeDataAbort
  · dsimp only
    split
    · exact .next ((hr.writeBack wb).branchTo _)
    · exact .next ((hr.writeBack wb).setReg ..).advance

theorem storeOp_contained (h : Confined s t) (size : Size) (a v : Word) (user : Bool) (wb : Option (Reg × Word)) :
    Contained s (storeOp size a v user wb t) := by
  have hw := h.writeData a size v user .single false
  unfold storeOp
  split
  · exact .refused _
  generalize t.writeData a size v user .single false = x at hw ⊢
  rcases x with ⟨_ | _, u⟩
  · exact .next (hw.writeBack wb).advance
  · exact .atVector hw.takeDataAbort

theorem thumbLoadWord_contained (h : Confined s t) (a : Word) (rd : LowReg) : Contained s (thumbLoadWord a rd t) := by
  have hr := h.readData a .word false .single
  unfold thumbLoadWord
  split
  · exact .refused _
  generalize t.readData a .word false .single = x at hr ⊢
  rcases x with ⟨_ | w, u⟩
  · exact .atVector hr.takeDataAbort
  · dsimp only
    split
    · exact .next (hr.setReg ..).advance
    · exact .next (hr.drawn.setReg ..).advance

theorem thumbStoreWord_contained (h : Confined s t) (a : Word) (rd : LowReg) : Contained s (thumbStoreWord a rd t) := by
  unfold thumbStoreWord
  split
  · exact .refused _
  split
  · exact storeOp_contained h ..
  · exact storeOp_contained h.drawn ..

theorem swapOp_contained (h : Confined s t) (k : LoadKind) (rn rd rm : Reg) : Contained s (swapOp k rn rd rm t) := by
  have hr := h.readData (t.reg rn) k.size false .locked
  unfold swapOp
  dsimp only
  generalize t.readData (t.reg rn) k.size false .locked = x at hr ⊢
  rcases x with ⟨_ | w, u⟩
  · exact .atVector hr.takeDataAbort
  · have hw := hr.swapGap.writeData (t.reg rn) k.size (t.reg rm) false .locked false
    dsimp only at hw ⊢
    generalize u.swapGap.writeData (t.reg rn) k.size (t.reg rm) false .locked false = x at hw ⊢
    rcases x with ⟨_ | _, v⟩
    · exact .next (hw.setReg ..).advance
    · exact .atVector hw.takeDataAbort

/-! ## Block transfers -/

/-- A block load into the User bank goes on from a confined state. -/
theorem blockLoad_contained (h : Confined s t) (rl : List Reg) (start : Word) (rn : Reg) (wb : Option Word)
    {fin : Word → State → Result} (hfin : ∀ w u, Confined s u → Contained s (fin w u)) :
    Contained s (blockLoad t.mode rl start rn wb t fin) := by
  have hx := h.readWords (blockAddrs start rl.length)
  unfold blockLoad
  dsimp only
  split
  · rw [h.mode]
    exact .atVector (hx.freeRegs ..).takeDataAbort
  · rw [h.mode]
    exact hfin _ _ ((hx.loadRegs _).writeBack _)

theorem blockStore_contained (h : Confined s t) (start : Word) (vals : List Word) (rn : Reg) (wb : Option Word) :
    Contained s (blockStore start vals rn wb t) := by
  have hw := h.writeWords ((blockAddrs start vals.length).zip vals)
  unfold blockStore
  generalize writeWords ((blockAddrs start vals.length).zip vals) t = x at hw ⊢
  rcases x with ⟨_ | _, u⟩
  · exact .next (hw.writeBack _).advance
  · exact .atVector hw.takeDataAbort

theorem ldmPlain_contained (h : Confined s t) (p u w : Bool) (rn : Reg) (list : BitVec 16) :
    Contained s (ldmPlain p u w rn list t) := by
  unfold ldmPlain
  dsimp only
  refine blockLoad_contained h _ _ _ _ fun v x hx => ?_
  split
  · exact .next (hx.branchTo _)
  · exact .next hx.advance

/-- LDM (3) needs an SPSR (R400). -/
theorem ldmReturn_contained (h : Confined s t) (p u w : Bool) (rn : Reg) (list : BitVec 15) :
    Contained s (ldmReturn p u w rn list t) := by
  simp only [ldmReturn, h.spsrOf_none]
  exact .refused _

theorem Confined.no_userForm (h : Confined s t) : ¬ hasUserForm t.mode = true := by
  rw [h.mode]
  decide

/-- LDM (2) and STM (2) need a bank beside the User bank (R398, R399). -/
theorem ldmUser_contained (h : Confined s t) (p u : Bool) (rn : Reg) (list : BitVec 15) :
    Contained s (ldmUser p u rn list t) := by
  rw [ldmUser, if_neg h.no_userForm]
  exact .refused _

theorem stmUser_contained (h : Confined s t) (p u : Bool) (rn : Reg) (list : BitVec 16) :
    Contained s (stmUser p u rn list t) := by
  rw [stmUser, if_neg h.no_userForm]
  exact .refused _

theorem popOp_contained (h : Confined s t) (pc : Bool) (list : BitVec 8) : Contained s (popOp pc list t) := by
  unfold popOp
  dsimp only
  refine blockLoad_contained h _ _ _ _ fun v x hx => ?_
  split
  · exact .next (hx.branchTo _)
  · exact .next hx.advance

theorem stmiaOp_contained (h : Confined s t) (rb : LowReg) (list : BitVec 8) : Contained s (stmiaOp rb list t) := by
  unfold stmiaOp
  dsimp only
  split
  · exact .refused _
  · exact blockStore_contained h.drawn ..

theorem ldmiaOp_contained (h : Confined s t) (rb : LowReg) (list : BitVec 8) : Contained s (ldmiaOp rb list t) :=
  blockLoad_contained h _ _ _ _ fun _ _ hx => .next hx.advance

/-! ## Branches and exceptions -/

theorem exchangeOp_contained (h : Confined s t) (v : Word) : Contained s (exchangeOp v t) := by
  unfold exchangeOp
  split
  · exact .refused _
  · exact .next ((h.setT _).branchTo _)

theorem thumbCondBranchOp_contained (h : Confined s t) (c : Cond) (off : BitVec 8) :
    Contained s (thumbCondBranchOp c off t) := by
  unfold thumbCondBranchOp
  split
  · exact .next (h.branchTo _)
  · exact .next (h.executed false).advance

theorem undefinedOp_contained (h : Confined s t) : Contained s (undefinedOp t) := .atVector h.takeUndefined

theorem swiOp_contained (h : Confined s t) : Contained s (swiOp t) := .atVector h.takeSwi

/-! ## Coprocessors -/

/-- Every answer but an acceptance ends in the Undefined Instruction trap or in a busy-wait. -/
theorem handshake_contained (h : Confined s t) (i : Instr) {go : Nat → List Word → State → Result}
    (hgo : ∀ n data u, Confined s u → Contained s (go n data u)) : Contained s (handshake i t go) := by
  unfold handshake
  split
  · exact .atVector (Confined.takeUndefined (t := t.passed) h.of_eq)
  · exact .atVector (h.answered _).takeUndefined
  · exact .next h.of_eq
  · exact .next h.of_eq
  · exact hgo _ _ _ ((h.answered _).tell _)

theorem cdpOp_contained (h : Confined s t) (i : Instr) (o : CopData) : Contained s (cdpOp i o t) := by
  unfold cdpOp
  split
  · exact .refused _
  · exact handshake_contained h i fun _ _ _ hu => .next hu.advance

theorem mcrOp_contained (h : Confined s t) (i : Instr) (o : CopReg) : Contained s (mcrOp i o t) := by
  unfold mcrOp
  split
  · split
    · exact .next h.of_eq
    · exact .refused _
  · exact handshake_contained h i fun _ _ _ hu => .next ((hu.tell _).copTransfer ..).advance

theorem mrcOp_contained (h : Confined s t) (i : Instr) (o : CopReg) : Contained s (mrcOp i o t) := by
  unfold mrcOp
  split
  · split
    · exact .next (Confined.movedToArm h.of_eq ..).advance
    · exact .next (Confined.movedToArm h.of_eq ..).advance
    · exact .refused _
  · refine handshake_contained h i fun _ data _ hu => ?_
    cases data
    · exact .next ((hu.drawn.copTransfer ..).movedToArm ..).advance
    · exact .next ((hu.copTransfer ..).movedToArm ..).advance

theorem ldcOp_contained (h : Confined s t) (i : Instr) (m : CopMem) : Contained s (ldcOp i m t) := by
  unfold ldcOp
  split
  · exact .refused _
  · refine handshake_contained h i fun n _ u hu => ?_
    have hx := hu.readWords (blockAddrs (CopMem.address t m) (n + 1))
    dsimp only
    split
    · exact .atVector (hx.tellWords _).takeDataAbort
    · exact .next ((hx.tellWords _).writeBack _).advance

theorem stcOp_contained (h : Confined s t) (i : Instr) (m : CopMem) : Contained s (stcOp i m t) := by
  unfold stcOp
  split
  · exact .refused _
  · refine handshake_contained h i fun n data u hu => ?_
    have hd : Confined s { u with draws := u.draws + (n + 1) } := hu.of_eq
    have hw := hd.writeWords ((blockAddrs (CopMem.address t m) (n + 1)).zip (stcWords u.draws (n + 1) data))
    dsimp only
    generalize writeWords ((blockAddrs _ _).zip _) _ = x at hw ⊢
    rcases x with ⟨_ | _, v⟩
    · exact .next (hw.writeBack _).advance
    · exact .atVector hw.takeDataAbort

end

/-! ## The dispatch -/

/-- Every instruction of User mode, outside debug state, is contained. -/
theorem exec_contained {i : Instr} {s : State} (hm : s.mode = usrMode) (hd : s.dbg.inDebug = false) : Contained s (exec i s) := by
  have h := Confined.start hm
  have hx := h.executed true
  cases i <;> unfold exec
  case mul | mla =>
    exact .armGuard h (mulOp_contained hx ..)
  case umull | umlal | smull | smlal =>
    exact .armGuard h (mulLongOp_contained hx ..)
  case undArith | undLsA | undLsB | undCtlReg | undCtlImm | undSpace | undCop =>
    exact .armGuard h (undefinedOp_contained hx)
  case swp | swpb =>
    exact .armGuard h (swapOp_contained hx ..)
  case strh | strtImm | strbtImm | strImm | strbImm | strtReg | strbtReg | strReg | strbReg =>
    exact .armGuard h (storeOp_contained hx ..)
  case ldrh | ldrsb | ldrsh | ldrtImm | ldrbtImm | ldrImm | ldrbImm | ldrtReg | ldrbtReg | ldrReg | ldrbReg =>
    exact .armGuard h (loadOp_contained hx ..)
  case mrs =>
    exact .armGuard h (readStatus_contained hx ..)
  case msrReg | msrImm =>
    exact .armGuard h (writeStatus_contained hx hd ..)
  case bx =>
    exact .armGuard h (exchangeOp_contained hx _)
  case andShiftImm | eorShiftImm | subShiftImm | rsbShiftImm | addShiftImm | adcShiftImm | sbcShiftImm | rscShiftImm
      | orrShiftImm | movShiftImm | bicShiftImm | mvnShiftImm | andShiftReg | eorShiftReg | subShiftReg | rsbShiftReg
      | addShiftReg | adcShiftReg | sbcShiftReg | rscShiftReg | orrShiftReg | movShiftReg | bicShiftReg | mvnShiftReg | andImm
      | eorImm | subImm | rsbImm | addImm | adcImm | sbcImm | rscImm | orrImm | movImm | bicImm | mvnImm =>
    exact .armGuard h (dataOp_contained hx ..)
  case tstShiftImm | teqShiftImm | cmpShiftImm | cmnShiftImm | tstShiftReg | teqShiftReg | cmpShiftReg | cmnShiftReg | tstImm
      | teqImm | cmpImm | cmnImm =>
    exact .armGuard h (compareOp_contained hx ..)
  case stm1 =>
    exact .armGuard h (blockStore_contained hx ..)
  case ldm1 =>
    exact .armGuard h (ldmPlain_contained hx ..)
  case stm2 =>
    exact .armGuard h (stmUser_contained hx ..)
  case ldm2 =>
    exact .armGuard h (ldmUser_contained hx ..)
  case ldm3 =>
    exact .armGuard h (ldmReturn_contained hx ..)
  case b =>
    exact .armGuard h (.next (hx.branchTo _))
  case bl =>
    exact .armGuard h (.next ((hx.setReg ..).branchTo _))
  case stc =>
    exact .armGuard h (stcOp_contained hx ..)
  case ldc =>
    exact .armGuard h (ldcOp_contained hx ..)
  case cdp =>
    exact .armGuard h (cdpOp_contained hx ..)
  case mcr =>
    exact .armGuard h (mcrOp_contained hx ..)
  case mrc =>
    exact .armGuard h (mrcOp_contained hx ..)
  case swi =>
    exact .armGuard h (swiOp_contained hx)
  case tLslImm | tLsrImm | tAsrImm | tAddReg | tSubReg | tAddImm3 | tSubImm3 | tMovImm | tAddImm | tSubImm | tAnd | tEor
      | tLsl | tLsr | tAsr | tAdc | tSbc | tRor | tNeg | tOrr | tBic | tMvn =>
    exact .thumbGuard (thumbAlu_contained hx ..)
  case tCmpImm | tTst | tCmp | tCmn | tCmpHi =>
    exact .thumbGuard (thumbFlags_contained hx _)
  case tMul =>
    exact .thumbGuard (mulOp_contained hx ..)
  case tAddHi | tMovHi | tAddPc | tAddSp | tIncSp | tDecSp =>
    exact .thumbGuard (thumbWrite_contained hx ..)
  case tBx =>
    exact .thumbGuard (exchangeOp_contained hx _)
  case tLdrPc | tLdrReg | tLdrImm | tLdrSp =>
    exact .thumbGuard (thumbLoadWord_contained hx ..)
  case tStrReg | tStrImm | tStrSp =>
    exact .thumbGuard (thumbStoreWord_contained hx ..)
  case tStrhReg | tStrbReg | tStrbImm | tStrhImm =>
    exact .thumbGuard (storeOp_contained hx ..)
  case tLdsbReg | tLdrhReg | tLdrbReg | tLdshReg | tLdrbImm | tLdrhImm =>
    exact .thumbGuard (loadOp_contained hx ..)
  case tPush =>
    exact .thumbGuard (blockStore_contained hx ..)
  case tPop =>
    exact .thumbGuard (popOp_contained hx ..)
  case tUnd1011 | tUndDE | tUnd11101 =>
    exact .thumbGuard (undefinedOp_contained hx)
  case tStmia =>
    exact .thumbGuard (stmiaOp_contained hx ..)
  case tLdmia =>
    exact .thumbGuard (ldmiaOp_contained hx ..)
  case tSwi =>
    exact .thumbGuard (swiOp_contained hx)
  case tBCond =>
    exact .thumbGuard (thumbCondBranchOp_contained hx ..)
  case tB =>
    exact .thumbGuard (.next (hx.branchTo _))
  case tBl1 =>
    exact .thumbGuard (.next (hx.setReg ..).advance)
  case tBl2 =>
    exact .thumbGuard (.next ((hx.setReg ..).branchTo _))

/-- Settles O9: every instruction is contained, and confinement says the rest of the statement. -/
theorem userModeKept : Obligations.UserModeKept := by
  unfold Obligations.UserModeKept
  intro i s t hm hd ht
  exact ((exec_contained hm hd).next_cases t ht).imp_left fun h => ⟨h.mode, h.maskI, h.maskF, h.spsr, h.banked⟩

end Sys2Proof.Machine
end

section
/-!
PROOFS. 43_arm_load_store.md: the addresses of addressing modes 2 and 3, and the single loads and stores. What the checks of a row
exclude is said once per mode; each row is then `loadTo_of` or `storeTo_of` at its body.
-/

namespace Sys2Proof.Machine

/-! ## Addresses -/

/-- Bit U adds or subtracts, modulo 2^32 (R342). -/
theorem offsetBy_toNat (u : Bool) (base off : Word) : ((offsetBy u base off).toNat : Int) =
    (if u then (base.toNat : Int) + off.toNat else (base.toNat : Int) - off.toNat) % 2 ^ 32 := by
  cases u with
  | true => rw [offsetBy, if_pos rfl, if_pos rfl, BitVec.toNat_add]; rfl
  | false =>
    rw [offsetBy, if_neg Bool.false_ne_true, if_neg Bool.false_ne_true, BitVec.toNat_sub]
    have := off.isLt
    omega

theorem imm12Offset_toNat (imm : BitVec 12) : (imm12Offset imm).toNat = imm.toNat :=
  BitVec.toNat_setWidth_of_le (by decide)

theorem Mode2.address_eq (a : Mode2) (base target : Word) :
    Mode2.address a base target = if a.idx = .post then base else target := by
  unfold Mode2.address
  cases a.idx <;> rfl

theorem Mode2.writeBack_eq (a : Mode2) (target : Word) :
    Mode2.writeBack a target = if a.idx = .offset then none else some (a.rn, target) := by
  unfold Mode2.writeBack Mode2.wb
  cases a.idx <;> rfl

/-- The two halves of an immediate are its high and low four bits (R341). -/
theorem Mode3.offset_toNat (s : State) (m : Mode3) :
    (Mode3.offset s m).toNat = if m.i then 16 * m.hi.toNat + m.lo.toNat else (s.reg m.lo).toNat := by
  unfold Mode3.offset
  split
  · rw [BitVec.toNat_setWidth_of_le (by decide), BitVec.toNat_append, ← Nat.shiftLeft_add_eq_or_of_lt m.lo.isLt,
      Nat.shiftLeft_eq, Nat.mul_comm]
  · rfl

theorem Mode3.writeBack_eq (s : State) (m : Mode3) :
    Mode3.writeBack s m = if m.p ∧ ¬ m.w then none else some (m.rn, Mode3.target s m) := by
  unfold Mode3.writeBack Mode3.wb
  cases m.p <;> cases m.w <;> rfl

theorem addressForms (s : State) : AddressForms s :=
  ⟨offsetBy_toNat, imm12Offset_toNat, fun _ => rfl,
    fun a base target => ⟨Mode2.address_eq a base target, Mode2.writeBack_eq a target⟩,
    fun m => ⟨Mode3.offset_toNat s m, rfl, rfl, Mode3.writeBack_eq s m⟩⟩

/-! ## What the checks exclude -/

/-- A transfer whose base and destination no check objects to: R15 is no destination where it is forbidden, and a base that is
written back is neither R15 nor the destination (R342). -/
structure TransferRegs (forbidden wb : Bool) (rn rd : Reg) : Prop where
  dest : forbidden = true → rd ≠ 15#4
  base : wb = true → rn ≠ 15#4 ∧ rn ≠ rd

section
variable {forbidden wb : Bool} {rn rd : Reg}

theorem TransferRegs.of_checks (h : firstDefect (destDefect forbidden rd ++ writebackDefect wb rn rd) = none) :
    TransferRegs forbidden wb rn rd := by
  obtain ⟨hdest, hback⟩ := firstDefect_append.mp h
  obtain ⟨hrd, -⟩ := firstDefect_cons.mp hdest
  obtain ⟨hpc, hrest⟩ := firstDefect_cons.mp hback
  obtain ⟨hne, -⟩ := firstDefect_cons.mp hrest
  refine ⟨fun hf => ?_, fun hw => ?_⟩
  · simpa [hf, isPc] using hrd
  · rw [hw, Bool.true_and] at hpc hne
    exact ⟨isPc_eq_false.mp hpc, beq_eq_false_iff_ne.mp hne⟩

/-- The checks of a register offset come behind those of base and destination. -/
theorem TransferRegs.of_index_checks {o : ShiftImm}
    (h : firstDefect (destDefect forbidden rd ++ writebackDefect wb rn rd ++ indexDefect wb rn o) = none) :
    TransferRegs forbidden wb rn rd :=
  .of_checks (firstDefect_append.mp h).1

theorem TransferRegs.of_mode3 {m : Mode3} (h : firstDefect (mode3Defect m) = none) :
    TransferRegs true (Mode3.wb m) m.rn m.rd := by
  simp only [mode3Defect, firstDefect_cons] at h
  obtain ⟨-, hrd, -, -, hpc, hne, -⟩ := h
  refine ⟨fun _ => isPc_eq_false.mp hrd, fun hw => ?_⟩
  rw [← Mode3.wb, hw, Bool.true_and] at hpc hne
  exact ⟨isPc_eq_false.mp hpc, beq_eq_false_iff_ne.mp hne⟩

/-- The write-back of a legal transfer is to a register that is neither R15 nor the destination. -/
theorem TransferRegs.writeBack (h : TransferRegs forbidden wb rn rd) (target : Word) :
    ∀ x ∈ (if wb then some (rn, target) else none), x.1 ≠ 15#4 ∧ x.1 ≠ rd := by
  intro x hx
  split at hx
  · next hwb =>
    obtain rfl := Option.some.inj hx
    exact h.base hwb
  · cases hx

end

/-! ## The bodies -/

section
variable {i : Instr} {s : State} {k : LoadKind} {size : Size} {forbidden : Bool} {off : Word}

theorem load2_loadTo {a : Mode2} (hx : Runs i s → exec i s = load2 k a off (s.executed true))
    (hd : Runs i s → TransferRegs forbidden (Mode2.wb a) a.rn a.rd) :
    let target := offsetBy a.u (s.reg a.rn) off
    LoadTo i s k (Mode2.address a (s.reg a.rn) target) false (Mode2.writeBack a target) a.rd :=
  loadTo_of hx fun h => (hd h).writeBack _

theorem store2_storeTo {a : Mode2} (hx : Runs i s → exec i s = store2 size a off (s.executed true))
    (hd : Runs i s → TransferRegs forbidden (Mode2.wb a) a.rn a.rd) :
    let target := offsetBy a.u (s.reg a.rn) off
    StoreTo i s size (Mode2.address a (s.reg a.rn) target) (s.storedReg a.rd) false (Mode2.writeBack a target) :=
  storeTo_of hx fun h x hm => ((hd h).writeBack _ x hm).1

theorem loadUser_loadTo {u : Bool} {rn rd : Reg} (hx : Runs i s → exec i s = loadUser k u rn rd off (s.executed true))
    (hd : Runs i s → TransferRegs forbidden true rn rd) :
    LoadTo i s k (s.reg rn) true (some (rn, offsetBy u (s.reg rn) off)) rd :=
  loadTo_of hx fun h => (hd h).writeBack _

theorem storeUser_storeTo {u : Bool} {rn rd : Reg} (hx : Runs i s → exec i s = storeUser size u rn rd off (s.executed true))
    (hd : Runs i s → TransferRegs forbidden true rn rd) :
    StoreTo i s size (s.reg rn) (s.storedReg rd) true (some (rn, offsetBy u (s.reg rn) off)) :=
  storeTo_of hx fun h x hm => ((hd h).writeBack _ x hm).1

theorem load3_loadTo {m : Mode3} (hx : Runs i s → exec i s = load3 k m (s.executed true))
    (hd : Runs i s → TransferRegs forbidden (Mode3.wb m) m.rn m.rd) :
    LoadTo i s k (Mode3.address s m) false (Mode3.writeBack s m) m.rd :=
  loadTo_of hx fun h => (hd h).writeBack _

theorem store3_storeTo {m : Mode3} (hx : Runs i s → exec i s = store3 m (s.executed true))
    (hd : Runs i s → TransferRegs forbidden (Mode3.wb m) m.rn m.rd) :
    StoreTo i s .half (Mode3.address s m) (s.storedReg m.rd) false (Mode3.writeBack s m) :=
  storeTo_of hx fun h x hm => ((hd h).writeBack _ x hm).1

end

/-! ## The rows -/

/-- Settles O25: each row is the load of its addressing mode, with registers that its checks allow. -/
theorem armLoads : Obligations.ArmLoads := by
  unfold Obligations.ArmLoads
  refine fun s c => ⟨addressForms s, ?mode2Imm, ?mode2Reg, ?userImm, ?userReg, ?mode3⟩
  case mode2Imm =>
    exact fun a imm => ⟨load2_loadTo run_ldrImm fun h => .of_checks h.checks,
      load2_loadTo run_ldrbImm fun h => .of_checks h.checks⟩
  case mode2Reg =>
    exact fun a o => ⟨load2_loadTo run_ldrReg fun h => .of_index_checks h.checks,
      load2_loadTo run_ldrbReg fun h => .of_index_checks h.checks⟩
  case userImm =>
    exact fun u rn rd imm => ⟨loadUser_loadTo run_ldrtImm fun h => .of_checks h.checks,
      loadUser_loadTo run_ldrbtImm fun h => .of_checks h.checks⟩
  case userReg =>
    exact fun u rn rd o => ⟨loadUser_loadTo run_ldrtReg fun h => .of_index_checks h.checks,
      loadUser_loadTo run_ldrbtReg fun h => .of_index_checks h.checks⟩
  case mode3 =>
    exact fun m => ⟨load3_loadTo run_ldrh fun h => .of_mode3 h.checks, load3_loadTo run_ldrsh fun h => .of_mode3 h.checks,
      load3_loadTo run_ldrsb fun h => .of_mode3 h.checks⟩

/-- Outside debug state R15 is stored as the address of the instruction + 12 (R348). -/
theorem State.storedReg_pc {s : State} (h : s.dbg.inDebug = false) : s.storedReg 15#4 = s.pc + 12#32 := by
  simp [State.storedReg, State.pcStored, h]

/-- Settles O26: as O25, for the stores. -/
theorem armStores : Obligations.ArmStores := by
  unfold Obligations.ArmStores
  refine fun s c => ⟨addressForms s, ?mode2Imm, ?mode2Reg, ?userImm, ?userReg, ?mode3, State.storedReg_pc⟩
  case mode2Imm =>
    exact fun a imm => ⟨store2_storeTo run_strImm fun h => .of_checks h.checks,
      store2_storeTo run_strbImm fun h => .of_checks h.checks⟩
  case mode2Reg =>
    exact fun a o => ⟨store2_storeTo run_strReg fun h => .of_index_checks h.checks,
      store2_storeTo run_strbReg fun h => .of_index_checks h.checks⟩
  case userImm =>
    exact fun u rn rd imm => ⟨storeUser_storeTo run_strtImm fun h => .of_checks h.checks,
      storeUser_storeTo run_strbtImm fun h => .of_checks h.checks⟩
  case userReg =>
    exact fun u rn rd o => ⟨storeUser_storeTo run_strtReg fun h => .of_index_checks h.checks,
      storeUser_storeTo run_strbtReg fun h => .of_index_checks h.checks⟩
  case mode3 =>
    exact fun m => store3_storeTo run_strh fun h => .of_mode3 h.checks

/-! ## LDR of R15 -/

/-- LDR in either offset form is the word load of mode 2, with registers that its checks allow. -/
theorem run_ldr {c : Cond} {a : Mode2} {i : Instr} {off : Word} {s : State}
    (hi : (∃ imm, i = .ldrImm c a imm ∧ off = imm12Offset imm) ∨ (∃ o, i = .ldrReg c a o ∧ off = shiftedOffset s o))
    (h : Runs i s) : exec i s = load2 .word a off (s.executed true) ∧ TransferRegs false (Mode2.wb a) a.rn a.rd := by
  rcases hi with ⟨imm, rfl, rfl⟩ | ⟨o, rfl, rfl⟩
  · exact ⟨run_ldrImm h, .of_checks h.checks⟩
  · exact ⟨run_ldrReg h, .of_index_checks h.checks⟩

/-- A load of R15 from an address that is not word aligned is refused (R346). -/
theorem loadOp_pc_unaligned {a : Word} {user : Bool} {wb : Option (Reg × Word)} {s : State} (h : a.extractLsb' 0 2 ≠ 0#2) :
    loadOp .word a user wb 15#4 s = .refused (.unpredictable .ldrPcUnaligned) := by
  rw [loadOp, oddHalf_false (by simp [EvenFor, LoadKind.size]), if_neg Bool.false_ne_true, if_pos ⟨rfl, h⟩]

/-- Settles O27: the word that `loadOp_jump` reads from an aligned address is not rotated. -/
theorem loadToPc : Obligations.LoadToPc := by
  unfold Obligations.LoadToPc
  intro s c a i off hrd hi target addr hr
  obtain ⟨hload, hregs⟩ := run_ldr hi hr
  have hexec : exec i s = loadOp .word addr false (Mode2.writeBack a target) 15#4 (s.executed true) := by
    rw [hload, ← hrd]
    rfl
  refine ⟨fun hua => hexec.trans (loadOp_pc_unaligned hua), fun hal hread => ?_⟩
  obtain ⟨t, hnext, hpc, hrest⟩ := loadOp_jump hexec hread hal fun x hx => (hregs.writeBack target x hx).1
  exact ⟨t, hnext, hpc.trans (by rw [LoadKind.value, rotateWord_aligned hal]), hrest⟩

end Sys2Proof.Machine
end

section
/-!
PROOFS. 60_exceptions.md R676, R683, R684 and 46_arm_coprocessor.md R478: a single transfer whose access is aborted. What Data Abort
entry reads is as the instruction found it; each of the four bodies of a single transfer then enters it.
-/

namespace Sys2Proof.Machine

/-! ## Data Abort entry -/

/-- `u` has everything that Data Abort entry reads, the instruction behind the running one with it, as `s` has it. -/
structure EntryUnchanged (s u : State) : Prop where
  regs : u.regs = s.regs
  pc : u.pc = s.pc
  cpsr : u.cpsr = s.cpsr
  spsr : u.spsr = s.spsr
  pins : u.pins = s.pins
  cop : u.cop = s.cop
  queue : u.pipe.queue = s.pipe.queue

section
variable {s u : State}

theorem EntryUnchanged.refl (s : State) : EntryUnchanged s s := ⟨rfl, rfl, rfl, rfl, rfl, rfl, rfl⟩

/-- A state that agrees with `u` in what Data Abort entry reads. -/
theorem EntryUnchanged.of_eq {v : State} (h : EntryUnchanged s u) (hr : v.regs = u.regs := by rfl) (hp : v.pc = u.pc := by rfl)
    (hc : v.cpsr = u.cpsr := by rfl) (hs : v.spsr = u.spsr := by rfl) (hi : v.pins = u.pins := by rfl)
    (ho : v.cop = u.cop := by rfl) (hq : v.pipe.queue = u.pipe.queue := by rfl) : EntryUnchanged s v :=
  ⟨hr.trans h.regs, hp.trans h.pc, hc.trans h.cpsr, hs.trans h.spsr, hi.trans h.pins, ho.trans h.cop, hq.trans h.queue⟩

theorem EntryUnchanged.executed (h : EntryUnchanged s u) (b : Bool) : EntryUnchanged s (u.executed b) := h.of_eq
theorem EntryUnchanged.drawn (h : EntryUnchanged s u) : EntryUnchanged s u.drawn := h.of_eq
theorem EntryUnchanged.accessed (h : EntryUnchanged s u) (e : BusEvent) (w : Word) : EntryUnchanged s (u.accessed e w) := h.of_eq
theorem EntryUnchanged.storeMem (h : EntryUnchanged s u) (bs : List (Nat × Byte)) : EntryUnchanged s (u.storeMem bs) := h.of_eq

/-- The instruction behind the running one depends on the prefetch queue and on the state the core is in. -/
theorem EntryUnchanged.following (h : EntryUnchanged s u) : u.following = s.following := by
  have hcode : u.codeOf = s.codeOf := by funext a id; rw [State.codeOf, State.codeOf, h.cpsr, h.pins]
  have hpass : (passes · u) = (passes · s) := by funext i; rw [passes, passes, h.cpsr]
  unfold State.following
  rw [h.queue]
  split
  · dsimp only
    rw [hcode, h.pc, width_of_cpsr (congrArg bitT h.cpsr), congrFun hpass]
  · rfl

end

/-- A coprocessor instruction behind the aborted one has seen PASS and is cancelled (R478). -/
theorem State.takeDataAbort_cancels {s : State} {j : Instr} (h : s.following = some j) :
    s.takeDataAbort.pass = true ∧ s.takeDataAbort.lateCancel = true ∧
      s.takeDataAbort.cop.log = s.cop.log ++ [.cancelled j] := by
  simp [State.takeDataAbort, State.cancelNext, h]

/-- The instruction answers the Data Abort entered from `s`; with `keeps`, memory is as in `s`. -/
def AnswersAbort (s : State) (keeps : Prop) (r : Result) : Prop :=
  ∃ u, r = .next u.takeDataAbort ∧ EntryUnchanged s u ∧ (keeps → u.mem = s.mem)

theorem AnswersAbort.mono {s : State} {p q : Prop} {r : Result} (h : AnswersAbort s p r) (hq : q → p) : AnswersAbort s q r := by
  obtain ⟨u, hr, hu, hm⟩ := h
  exact ⟨u, hr, hu, hm ∘ hq⟩

theorem AnswersAbort.enters {s : State} {keeps : Prop} {r : Result} (h : AnswersAbort s keeps r) :
    ∃ t, r = .next t ∧ Enters .dataAbort (s.pc + 8#32) s t ∧ (keeps → t.mem = s.mem) ∧
      (∀ j, s.following = some j → t.pass = true ∧ t.lateCancel = true ∧ t.cop.log = s.cop.log ++ [.cancelled j]) := by
  obtain ⟨u, hr, hu, hm⟩ := h
  have henters := u.takeDataAbort_enters
  rw [hu.pc] at henters
  refine ⟨_, hr, henters.from hu.regs hu.cpsr hu.spsr hu.pins, fun hk => by rw [State.takeDataAbort_mem, hm hk], fun j hj => ?_⟩
  rw [← hu.cop]
  exact State.takeDataAbort_cancels (hu.following.trans hj)

/-! ## The bodies of a single transfer -/

section
variable {s : State} {r : MemRule} {size : Size} {a : Word} {user : Bool}

/-- A rule that answers with an abort aborts the access. -/
theorem aborts_of_rule {write : Bool} (hd : s.debugSpeed = false) (hb : s.sys.budget = none)
    (hrule : s.dataRule a size write user = some r) (ha : r.answer.aborts = true) : Aborts s a size write user :=
  ⟨hd, hb, State.dataAborts_iff.mpr ⟨r, hrule, ha⟩⟩

theorem loadOp_answersAbort {k : LoadKind} {wb : Option (Reg × Word)} {rd : Reg} (h : Aborts s a k.size false user)
    (he : EvenFor k.size a) (hpc : rd = 15#4 → a.extractLsb' 0 2 = 0#2) :
    AnswersAbort s True (loadOp k a user wb rd (s.executed true)) := by
  obtain ⟨e, w, hx⟩ := loadOp_aborts (s := s.executed true) (wb := wb) h he hpc
  exact ⟨_, hx, ((EntryUnchanged.refl s).executed true).drawn.accessed e w, fun _ => rfl⟩

/-- A word load of Thumb state is made at an address that is not refused, aligned or not (log 11). -/
theorem thumbLoadWord_answersAbort {rd : LowReg} (h : Aborts s a .word false false) (hf : s.refusesWord a = false) :
    AnswersAbort s True (thumbLoadWord a rd (s.executed true)) := by
  rw [thumbLoadWord, show (s.executed true).refusesWord a = false from hf, if_neg Bool.false_ne_true,
    State.readData_abort (s := s.executed true) h]
  exact ⟨_, rfl, ((EntryUnchanged.refl s).executed true).drawn.accessed .., fun _ => rfl⟩

/-- The store is made in a state `u` that the instruction has come to from `s`. -/
theorem storeOp_answersAbort {u : State} {v : Word} {wb : Option (Reg × Word)} (hu : EntryUnchanged s u) (hm : u.mem = s.mem)
    (hd : u.debugSpeed = false) (hb : u.sys.budget = none) (hrule : u.dataRule a size true user = some r)
    (ha : r.answer.aborts = true) (he : EvenFor size a) :
    AnswersAbort s (r.answer.lands = false) (storeOp size a v user wb u) := by
  obtain ⟨e, w, hx⟩ := storeOp_aborts (v := v) (wb := wb) hd hb hrule ha he
  refine ⟨_, hx, ?_, fun hlands => by rw [hlands]; exact hm⟩
  split
  · exact (hu.accessed e w).storeMem _
  · exact hu.accessed e w

/-- A word store of Thumb state stores its register or a free value (log 11). -/
theorem thumbStoreWord_answersAbort {rd : LowReg} (hf : s.refusesWord a = false) (hd : s.debugSpeed = false)
    (hb : s.sys.budget = none) (hrule : s.dataRule a .word true false = some r) (ha : r.answer.aborts = true) :
    AnswersAbort s (r.answer.lands = false) (thumbStoreWord a rd (s.executed true)) := by
  rw [thumbStoreWord, show (s.executed true).refusesWord a = false from hf, if_neg Bool.false_ne_true]
  have hu := (EntryUnchanged.refl s).executed true
  split
  · exact storeOp_answersAbort hu rfl hd hb hrule ha nofun
  · exact storeOp_answersAbort hu.drawn rfl hd hb hrule ha nofun

end

/-! ## The rows -/

/-- The four bodies that a single transfer can have, with the access that each makes. -/
inductive SingleBody (i : Instr) (s : State) : Single → Prop
  | load (k : LoadKind) {a : Word} {user toPc : Bool} {wb : Option (Reg × Word)} {rd : Reg}
      (hpc : rd = 15#4 → toPc = true) (h : exec i s = loadOp k a user wb rd (s.executed true)) :
      SingleBody i s ⟨a, k.size, false, user, toPc⟩
  | store {size : Size} {a v : Word} {user : Bool} {wb : Option (Reg × Word)}
      (h : exec i s = storeOp size a v user wb (s.executed true)) : SingleBody i s ⟨a, size, true, user, false⟩
  | thumbLoad {a : Word} {rd : LowReg} (hc : Instr.cond i = none) (h : exec i s = thumbLoadWord a rd (s.executed true)) :
      SingleBody i s ⟨a, .word, false, false, false⟩
  | thumbStore {a : Word} {rd : LowReg} (hc : Instr.cond i = none) (h : exec i s = thumbStoreWord a rd (s.executed true)) :
      SingleBody i s ⟨a, .word, true, false, false⟩

theorem SingleBody.loadLow {i : Instr} {s : State} (k : LoadKind) {a : Word} {rd : LowReg}
    (h : exec i s = loadOp k a false none (lowReg rd) (s.executed true)) : SingleBody i s ⟨a, k.size, false, false, false⟩ :=
  .load k (fun hpc => absurd hpc (lowReg_ne rd)) h

/-- A load whose checks forbid R15 as destination loads no R15. -/
theorem SingleBody.loadLegal {i : Instr} {s : State} (k : LoadKind) {a : Word} {user wb' : Bool} {wb : Option (Reg × Word)}
    {rn rd : Reg} (hd : TransferRegs true wb' rn rd) (h : exec i s = loadOp k a user wb rd (s.executed true)) :
    SingleBody i s ⟨a, k.size, false, user, false⟩ :=
  .load k (fun hpc => absurd hpc (hd.dest rfl)) h

theorem singleBody_of_singleAccess {i : Instr} {s : State} {x : Single} (hx : singleAccess s i = some x) (h : Runs i s) :
    SingleBody i s x := by
  cases i <;> cases hx
  case ldrImm => exact .load .word beq_iff_eq.mpr (run_ldrImm h)
  case ldrReg => exact .load .word beq_iff_eq.mpr (run_ldrReg h)
  case ldrbImm => exact .loadLegal .byte (.of_checks h.checks) (run_ldrbImm h)
  case ldrbReg => exact .loadLegal .byte (.of_index_checks h.checks) (run_ldrbReg h)
  case ldrtImm => exact .loadLegal .word (.of_checks h.checks) (run_ldrtImm h)
  case ldrtReg => exact .loadLegal .word (.of_index_checks h.checks) (run_ldrtReg h)
  case ldrbtImm => exact .loadLegal .byte (.of_checks h.checks) (run_ldrbtImm h)
  case ldrbtReg => exact .loadLegal .byte (.of_index_checks h.checks) (run_ldrbtReg h)
  case ldrh => exact .loadLegal .half (.of_mode3 h.checks) (run_ldrh h)
  case ldrsh => exact .loadLegal .shalf (.of_mode3 h.checks) (run_ldrsh h)
  case ldrsb => exact .loadLegal .sbyte (.of_mode3 h.checks) (run_ldrsb h)
  case strImm => exact .store (run_strImm h)
  case strReg => exact .store (run_strReg h)
  case strbImm => exact .store (run_strbImm h)
  case strbReg => exact .store (run_strbReg h)
  case strtImm => exact .store (run_strtImm h)
  case strtReg => exact .store (run_strtReg h)
  case strbtImm => exact .store (run_strbtImm h)
  case strbtReg => exact .store (run_strbtReg h)
  case strh => exact .store (run_strh h)
  case tLdrPc => exact .thumbLoad rfl (run_tLdrPc h)
  case tLdrReg => exact .thumbLoad rfl (run_tLdrReg h)
  case tLdrImm => exact .thumbLoad rfl (run_tLdrImm h)
  case tLdrSp => exact .thumbLoad rfl (run_tLdrSp h)
  case tLdrhReg => exact .loadLow .half (run_tLdrhReg h)
  case tLdrhImm => exact .loadLow .half (run_tLdrhImm h)
  case tLdshReg => exact .loadLow .shalf (run_tLdshReg h)
  case tLdrbReg => exact .loadLow .byte (run_tLdrbReg h)
  case tLdrbImm => exact .loadLow .byte (run_tLdrbImm h)
  case tLdsbReg => exact .loadLow .sbyte (run_tLdsbReg h)
  case tStrReg => exact .thumbStore rfl (run_tStrReg h)
  case tStrImm => exact .thumbStore rfl (run_tStrImm h)
  case tStrSp => exact .thumbStore rfl (run_tStrSp h)
  case tStrhReg => exact .store (run_tStrhReg h)
  case tStrhImm => exact .store (run_tStrhImm h)
  case tStrbReg => exact .store (run_tStrbReg h)
  case tStrbImm => exact .store (run_tStrbImm h)

/-- A Thumb word access is not refused where a run that makes the refusals of the spec has it aligned. -/
theorem State.refusesWord_eq_false {s : State} {a : Word} (h : s.pins.strict = true → a.extractLsb' 0 2 = 0#2) :
    s.refusesWord a = false := by
  cases hs : s.pins.strict with
  | true => exact State.refusesWord_aligned (h hs) s
  | false => rw [State.refusesWord, hs, Bool.false_and, Bool.false_and]

/-- Settles O29: whichever of the four bodies the transfer has, it enters the Data Abort. -/
theorem singleAborts : Obligations.SingleAborts := by
  unfold Obligations.SingleAborts
  intro s i x r hx hr hd hb hrule ha he hpc hstrict
  refine AnswersAbort.enters ?_
  cases singleBody_of_singleAccess hx hr with
  | load k hrd h =>
    rw [h]
    exact (loadOp_answersAbort (aborts_of_rule hd hb hrule ha) he fun h15 => hpc (hrd h15)).mono fun _ => trivial
  | store h =>
    rw [h]
    exact (storeOp_answersAbort ((EntryUnchanged.refl s).executed true) rfl hd hb hrule ha he).mono
      (Or.resolve_left · Bool.noConfusion)
  | thumbLoad hc h =>
    rw [h]
    exact (thumbLoadWord_answersAbort (aborts_of_rule hd hb hrule ha) (State.refusesWord_eq_false (hstrict hc rfl))).mono
      fun _ => trivial
  | thumbStore hc h =>
    rw [h]
    exact (thumbStoreWord_answersAbort (State.refusesWord_eq_false (hstrict hc rfl)) hd hb hrule ha).mono
      (Or.resolve_left · Bool.noConfusion)

end Sys2Proof.Machine
end

section
/-!
PROOFS. 44_arm_load_store_multiple_swap.md R420, R421: SWP and SWPB. What stands between the two accesses is said once, other masters'
writes with it; the completed and the aborted swap then follow from the laws of single accesses.
-/

namespace Sys2Proof.Machine

/-! ## What accesses leave alone -/

theorem OnlyAccesses.sameButAccesses {s t : State} (h : OnlyAccesses s t) : SameButAccesses s t :=
  ⟨h.spsr, h.imem, h.pins, h.sys, h.tap, h.inReset, h.schedule, h.dbgCtl, h.vecCatch, h.commsRead, h.commsWrite, h.wBit, h.rBit,
    h.wCore, h.rCore, h.wDbg, h.rDbg, h.inDebug⟩

theorem OnlyAccesses.entryUnchanged {s t : State} (h : OnlyAccesses s t) (hp : t.pipe = s.pipe) : EntryUnchanged s t :=
  ⟨h.regs, h.pc, h.cpsr, h.spsr, h.pins, h.cop, congrArg Pipe.queue hp⟩

theorem SameButAccesses.trans {s t u : State} (h : SameButAccesses s t) (h' : SameButAccesses t u) : SameButAccesses s u := by
  simp_all [SameButAccesses]

/-- Writing a register and going on touches nothing that accesses leave alone. -/
theorem sameButAccesses_setReg_advance (s : State) (r : Reg) (v : Word) : SameButAccesses s (s.setReg r v).advance := by
  simp [SameButAccesses]

section
variable {s t : State} {rd : Reg} (v : Word)

/-- After some accesses a register is written and execution goes on. -/
theorem OnlyAccesses.setReg_advance (h : OnlyAccesses s t) (hrd : rd ≠ 15#4) :
    (t.setReg rd v).advance.bankReg s.mode rd = v ∧ OnlyRegs s.mode [rd] s (t.setReg rd v).advance ∧
      (t.setReg rd v).advance.cpsr = s.cpsr ∧ FallsThrough s (t.setReg rd v).advance := by
  refine ⟨?_, ?_, ?_, ?_⟩
  · rw [State.bankReg_advance, ← h.mode, State.bankReg_setReg_same _ _ _ hrd]
  · rw [← h.mode]
    exact onlyRegs_from (onlyRegs_of_regs (OnlyRegs.setReg t rd v) rfl) h.regs
  · simp [h.cpsr]
  · simp [FallsThrough, h.pc, h.width]

end

/-! ## The two accesses -/

/-- A read of any size: none exactly when it aborts, and it makes an access only. -/
theorem State.readData_answers {s : State} (a : Word) (size : Size) (user : Bool) (b : Beat) (h1 : s.debugSpeed = false)
    (h2 : s.sys.budget = none) :
    ∃ w t, s.readData a size user b = (if s.dataAborts a size false user then none else some w, t) ∧ OnlyAccesses s t ∧
      t.mem = s.mem ∧ t.pipe = s.pipe := by
  refine ⟨lane s.pins.bigend size a (s.ddin a (s.dataRule a size false user)).1, (s.readData a size user b).2, ?_, ?_⟩
  · simp only [State.readData, h1, h2, State.dataAborts, Bool.false_eq_true, if_false, reduceCtorEq]
    rfl
  · simp only [State.readData, State.ddin, h1, h2, Bool.false_eq_true, if_false, reduceCtorEq]
    split
    · rw [State.spend_eq (s := s.drawn) h2]
      exact ⟨(OnlyAccesses.drawn s).trans (OnlyAccesses.accessed ..), rfl, rfl⟩
    · rw [State.spend_eq h2]
      exact ⟨OnlyAccesses.accessed .., rfl, rfl⟩

/-- What the first of the other masters' gaps does. -/
theorem State.othersAct_cons {s : State} {ws : List (Word × Byte)} {gaps : List (List (Word × Byte))}
    (h : s.sys.others = ws :: gaps) :
    s.othersAct = { s with
      mem := Memory.writeAll s.mem (ws.map fun x => (x.1.toNat, x.2)), sys := { s.sys with others := gaps } } := by
  rw [State.othersAct, h]

/-- Between the accesses of a swap only memory and what the other masters have still to write can change. -/
theorem State.swapGap_changes (s : State) :
    ∃ m l, s.swapGap = { s with mem := m, sys := { s.sys with others := l } } := by
  unfold State.swapGap State.othersAct
  split
  · exact ⟨s.mem, s.sys.others, rfl⟩
  · split
    · exact ⟨s.mem, s.sys.others, rfl⟩
    · exact ⟨_, _, rfl⟩

/-! ## The completed swap -/

section
variable {s : State} {k : LoadKind} {rn rd rm : Reg}

/-- The state after the read of a swap. -/
def State.swapRead (s : State) (k : LoadKind) (rn : Reg) : State :=
  s.accessed (s.event (s.reg rn) k.size false (s.busRead k.size (s.reg rn)) false .locked) (busWordAt s.pins.bigend s.mem (s.reg rn))

/-- The state `t`, to which the swap has come from `s`, after the write. -/
def State.swapWritten (s t : State) (k : LoadKind) (rn rm : Reg) : State :=
  (t.accessed (s.event (s.reg rn) k.size true (ddCopies k.size (s.reg rm)) false .locked) (ddCopies k.size (s.reg rm))).storeMem
    (storeBytes s.pins.bigend k.size (s.reg rn) (s.reg rm))

theorem OnlyAccesses.swapRead (s : State) (k : LoadKind) (rn : Reg) : OnlyAccesses s (s.swapRead k rn) := .accessed ..

theorem OnlyAccesses.swapWritten (s t : State) (k : LoadKind) (rn rm : Reg) : OnlyAccesses t (s.swapWritten t k rn rm) :=
  (OnlyAccesses.accessed ..).trans (.storeMem ..)

/-- The write stores the bytes of Rm over the memory it finds. -/
theorem stored_swapWritten {s t u : State} {k : LoadKind} {rn rm : Reg} (h : u.mem = (s.swapWritten t k rn rm).mem) :
    Stored (storeBytes s.pins.bigend k.size (s.reg rn) (s.reg rm)) t u :=
  stored_storeMem (t := t) rfl h storeBytes_lt (storeBytes_nodup ..)

/-- A swap whose accesses are both answered, whatever comes between them. -/
theorem swapOp_answered (hr : Readable s (s.reg rn) k.size false) (hw : Writable s (s.reg rn) k.size false) :
    swapOp k rn rd rm s = .next ((s.swapWritten (s.swapRead k rn).swapGap k rn rm).setReg rd
      (k.value (s.reg rn) (s.busRead k.size (s.reg rn)))).advance := by
  obtain ⟨m, l, hgap⟩ := (s.swapRead k rn).swapGap_changes
  rw [swapOp, State.readData_ok hr, State.spend_eq hr.2.1]
  simp only
  rw [← State.swapRead, hgap,
    State.writeData_ok (s := { s.swapRead k rn with mem := m, sys := { (s.swapRead k rn).sys with others := l } }) (by exact hw)]
  rfl

theorem swap_alone (hrd : rd ≠ 15#4) (hr : Readable s (s.reg rn) k.size false) (hw : Writable s (s.reg rn) k.size false)
    (hl : s.sys.locks = true ∨ Alone s) :
    ∃ t, swapOp k rn rd rm s = .next t ∧ t.bankReg s.mode rd = k.value (s.reg rn) (s.busRead k.size (s.reg rn)) ∧
      OnlyRegs s.mode [rd] s t ∧ Stored (storeBytes s.pins.bigend k.size (s.reg rn) (s.reg rm)) s t ∧
      t.bus = s.event (s.reg rn) k.size true (ddCopies k.size (s.reg rm)) false .locked ::
        s.event (s.reg rn) k.size false (s.busRead k.size (s.reg rn)) false .locked :: s.bus ∧
      t.cpsr = s.cpsr ∧ FallsThrough s t ∧ t.cop = s.cop ∧ SameButAccesses s t := by
  have hacc : OnlyAccesses s (s.swapWritten (s.swapRead k rn) k rn rm) := (OnlyAccesses.swapRead ..).trans (.swapWritten ..)
  have hgap : (s.swapRead k rn).swapGap = s.swapRead k rn := State.swapGap_eq hl
  obtain ⟨hreg, honly, hcpsr, hfall⟩ := hacc.setReg_advance (k.value (s.reg rn) (s.busRead k.size (s.reg rn))) hrd
  exact ⟨_, by rw [swapOp_answered hr hw, hgap], hreg, honly, stored_swapWritten (t := s.swapRead k rn) (by simp),
    by simp [State.swapWritten, State.swapRead], hcpsr, hfall, by simp [hacc.cop],
    hacc.sameButAccesses.trans (sameButAccesses_setReg_advance ..)⟩

/-- Where DLOCK is not honoured another master can write between the two accesses (20_memory.md R142). -/
theorem swap_interrupted {ws : List (Word × Byte)} {gaps : List (List (Word × Byte))} (hrd : rd ≠ 15#4)
    (hr : Readable s (s.reg rn) k.size false) (hw : Writable s (s.reg rn) k.size false) (hl : s.sys.locks = false)
    (ho : s.sys.others = ws :: gaps) :
    ∃ t, swapOp k rn rd rm s = .next t ∧ t.bankReg s.mode rd = k.value (s.reg rn) (s.busRead k.size (s.reg rn)) ∧
      OnlyRegs s.mode [rd] s t ∧ t.cpsr = s.cpsr ∧ FallsThrough s t ∧ t.sys.others = gaps ∧
      Stored (storeBytes s.pins.bigend k.size (s.reg rn) (s.reg rm))
        { s with mem := Memory.writeAll s.mem (ws.map fun x => (x.1.toNat, x.2)) } t := by
  have hgap : (s.swapRead k rn).swapGap = { s.swapRead k rn with
      mem := Memory.writeAll s.mem (ws.map fun x => (x.1.toNat, x.2)), sys := { s.sys with others := gaps } } := by
    rw [State.swapGap, if_neg (by simp [State.swapRead, hl]), State.othersAct_cons (by exact ho)]
    rfl
  obtain ⟨hreg, honly, hcpsr, hfall⟩ := (OnlyAccesses.swapWritten s (s.swapRead k rn).swapGap k rn rm).setReg_advance
    (k.value (s.reg rn) (s.busRead k.size (s.reg rn))) hrd
  have hs := stored_swapWritten (s := s) (t := (s.swapRead k rn).swapGap) (k := k) (rn := rn) (rm := rm)
    (u := ((s.swapWritten (s.swapRead k rn).swapGap k rn rm).setReg rd (k.value (s.reg rn) (s.busRead k.size (s.reg rn)))).advance)
    (by simp)
  rw [hgap] at hreg honly hcpsr hfall hs
  exact ⟨_, by rw [swapOp_answered hr hw, hgap], hreg, honly, hcpsr, hfall, by simp [State.swapWritten], hs⟩

/-! ## The aborted swap -/

/-- When either access is aborted the Data Abort is entered. Memory is as before when it is the read, and when it is the write, made with
no other master between, unless the memory system lands it. -/
theorem swapOp_answersAbort (h : Aborts s (s.reg rn) k.size false false ∨ Aborts s (s.reg rn) k.size true false) :
    AnswersAbort s (Aborts s (s.reg rn) k.size false false ∨
      (∀ r, s.dataRule (s.reg rn) k.size true false = some r → r.answer.lands = false) ∧ (s.sys.locks = true ∨ Alone s))
      (swapOp k rn rd rm s) := by
  have hd : s.debugSpeed = false := h.elim And.left And.left
  have hb : s.sys.budget = none := h.elim (·.2.1) (·.2.1)
  obtain ⟨w, t, hread, hacc, hmem, hpipe⟩ := s.readData_answers (s.reg rn) k.size false .locked hd hb
  have hent := hacc.entryUnchanged hpipe
  rw [swapOp, hread]
  cases hra : s.dataAborts (s.reg rn) k.size false false with
  | true => exact ⟨t, rfl, hent, fun _ => hmem⟩
  | false =>
    have hnot : ¬ Aborts s (s.reg rn) k.size false false := fun ha => by simp [ha.2.2] at hra
    obtain ⟨r, hrule, ha⟩ := State.dataAborts_iff.mp (h.resolve_left hnot).2.2
    obtain ⟨m, l, hgap⟩ := t.swapGap_changes
    have hrule' : t.swapGap.dataRule (s.reg rn) k.size true false = some r := by
      rw [hgap, ← hrule, ← hacc.dataRule]
      rfl
    have hd' : t.swapGap.debugSpeed = false := by rw [hgap, ← hd, ← hacc.debugSpeed]; rfl
    have hb' : t.swapGap.sys.budget = none := by rw [hgap, ← hb, ← hacc.sys]
    have hent' : EntryUnchanged s t.swapGap := by
      rw [hgap]
      exact hent.of_eq
    simp only [Bool.false_eq_true, if_false, State.writeData_abort hd' hb' hrule' ha]
    refine ⟨_, rfl, ?_, fun hk => ?_⟩
    · split
      · exact (hent'.accessed ..).storeMem _
      · exact hent'.accessed ..
    · obtain ⟨hlands, hl⟩ := hk.resolve_left hnot
      rw [hlands r hrule, if_neg Bool.false_ne_true, State.swapGap_eq (by rw [Alone, hacc.sys]; exact hl)]
      exact hmem

end

/-! ## The rows -/

/-- SWP and SWPB are the swap of their size, into a register other than R15. -/
theorem run_swap {c : Cond} {rn rd rm : Reg} {i : Instr} {k : LoadKind} {s : State}
    (hi : (i = .swp c rn rd 0#4 rm ∧ k = .word) ∨ (i = .swpb c rn rd 0#4 rm ∧ k = .byte)) (h : Runs i s) :
    exec i s = swapOp k rn rd rm (s.executed true) ∧ rd ≠ 15#4 := by
  have hdest : firstDefect (swapDefect rn rd 0#4 rm) = none → rd ≠ 15#4 := by
    intro hd
    simp only [swapDefect, firstDefect_cons, Bool.or_eq_false_iff, isPc_eq_false] at hd
    obtain ⟨-, ⟨⟨-, hrd⟩, -⟩, -⟩ := hd
    exact hrd
  rcases hi with ⟨rfl, rfl⟩ | ⟨rfl, rfl⟩
  · exact ⟨run_swp h, hdest h.checks⟩
  · exact ⟨run_swpb h, hdest h.checks⟩

/-- Settles O28: the three outcomes of `swapOp` on the state in which the body runs. -/
theorem swap : Obligations.Swap := by
  unfold Obligations.Swap
  intro s c rn rd rm i k hi hr
  obtain ⟨hexec, hrd⟩ := run_swap hi hr
  rw [hexec]
  refine ⟨swap_alone (s := s.executed true) hrd, fun ws gaps => swap_interrupted (s := s.executed true) hrd, fun h => ?_⟩
  obtain ⟨t, hnext, henters, hkeeps, -⟩ := (swapOp_answersAbort (s := s.executed true) (rd := rd) (rm := rm) h).enters
  exact ⟨t, hnext, henters, fun hread => hkeeps (.inl hread), fun hlands hl => hkeeps (.inr ⟨hlands, hl⟩)⟩

end Sys2Proof.Machine
end

section
/-!
PROOFS. 44_arm_load_store_multiple_swap.md R390 and 20_memory.md R133: the addresses of a block and the list of its registers.
-/

namespace Sys2Proof.Machine

/-! ## Addresses -/

/-- The k-th word of a block lies 4k bytes on, at the word address below. -/
theorem wordAddr_toNat (start : Word) (k : Nat) : (wordAddr start k).toNat = (start.toNat + 4 * k) % 2 ^ 32 / 4 * 4 := by
  rw [wordAddr, toNat_mask4, BitVec.toNat_add, BitVec.toNat_ofNat, Nat.add_mod_mod]
  omega

/-- Settles O30: the table of R390 is the definition's, the list is `mem_regList` and `regList_pairwise`. -/
theorem blockAddresses : Obligations.BlockAddresses := by
  unfold Obligations.BlockAddresses
  exact ⟨fun base n => ⟨rfl, rfl, rfl, rfl, rfl, rfl, wordAddr_toNat base n⟩,
    fun list => ⟨mem_regList list, regList_pairwise list⟩⟩

/-! ## Lists of registers -/

section
variable {n : Nat} {list : BitVec n}

theorem inList_iff {r : Reg} : inList list r = true ↔ r ∈ regList list := (mem_regList list r).symm

theorem inList_eq_false {r : Reg} : inList list r = false ↔ r ∉ regList list := by
  rw [← inList_iff, Bool.not_eq_true]

/-- A list of at most sixteen bits that is not empty has a register. -/
theorem regList_ne_nil_of_ne_zero (hn : n ≤ 16) (h : list ≠ 0#n) : regList list ≠ [] := by
  intro hnil
  refine h (BitVec.eq_of_getLsbD_eq fun i hi => ?_)
  have hi' : (BitVec.ofNat 4 i).toNat = i := by rw [BitVec.toNat_ofNat]; omega
  have hmem := mem_regList list (BitVec.ofNat 4 i)
  rw [hnil, hi'] at hmem
  simpa using hmem

/-- A register below `r` is in the list. -/
theorem belowInList_iff {r : Reg} : belowInList list r = true ↔ ∃ q ∈ regList list, q.toNat < r.toNat := by
  have hmod : ∀ j, (list.toNat % 2 ^ r.toNat).testBit j = (decide (j < r.toNat) && list.getLsbD j) := fun j => by
    rw [Nat.testBit_mod_two_pow, BitVec.testBit_toNat]
  rw [belowInList, bne_iff_ne]
  constructor
  · intro h
    obtain ⟨j, hj⟩ := Nat.exists_testBit_of_ne_zero h
    rw [hmod, Bool.and_eq_true, decide_eq_true_eq] at hj
    obtain ⟨hlt, hbit⟩ := hj
    have hj' : (BitVec.ofNat 4 j).toNat = j := by rw [BitVec.toNat_ofNat]; omega
    exact ⟨BitVec.ofNat 4 j, (mem_regList ..).mpr (by rw [hj', hbit]), by rw [hj']; exact hlt⟩
  · rintro ⟨q, hq, hlt⟩ hzero
    have hbit := hmod q.toNat
    rw [hzero, (mem_regList ..).mp hq] at hbit
    simp [hlt] at hbit

/-- Of a listed register, that it is not the lowest. -/
theorem belowInList_iff_head {r : Reg} (hr : r ∈ regList list) : belowInList list r = true ↔ (regList list).head? ≠ some r := by
  rw [belowInList_iff]
  have hsorted := regList_pairwise list
  cases hl : regList list with
  | nil => rw [hl] at hr; cases hr
  | cons a rest =>
    rw [hl] at hr hsorted
    obtain ⟨hmin, -⟩ := List.pairwise_cons.mp hsorted
    rw [List.head?_cons, ne_eq, Option.some.injEq]
    constructor
    · rintro ⟨q, hq, hlt⟩ rfl
      rcases List.mem_cons.mp hq with rfl | hq
      · exact Nat.lt_irrefl _ hlt
      · exact Nat.lt_asymm hlt (hmin q hq)
    · intro hne
      exact ⟨a, List.mem_cons_self, hmin r ((List.mem_cons.mp hr).resolve_left fun he => hne he.symm)⟩

end

/-- A list of `n` bits names the registers below `n`. -/
theorem toNat_lt_of_mem_regList {n : Nat} {list : BitVec n} {r : Reg} (h : r ∈ regList list) : r.toNat < n :=
  BitVec.lt_of_getLsbD ((mem_regList list r).mp h)

end Sys2Proof.Machine
end

section
/-!
PROOFS. 44_arm_load_store_multiple_swap.md R395, R398, R400 and 48_thumb_memory_branch.md R621, R630: the block loads. Each row's words
are loaded in the same way (`BlockWords`); how it goes on, at the next instruction or at the word loaded for R15, is said after that.
-/

namespace Sys2Proof.Machine

/-! ## What the checks exclude -/

/-- Base and list of a block transfer that runs (R391). -/
theorem base_and_list_of_blockDefect {n : Nat} {rn : Reg} {list : BitVec n} {l : List (Bool × Defect)} (hn : n ≤ 16)
    (h : firstDefect (blockDefect rn list false ++ l) = none) : rn ≠ 15#4 ∧ regList list ≠ [] := by
  obtain ⟨hblock, -⟩ := firstDefect_append.mp h
  simp only [blockDefect, firstDefect_cons, isPc_eq_false, Bool.not_false, Bool.true_and, beq_eq_false_iff_ne] at hblock
  obtain ⟨hrn, hlist, -⟩ := hblock
  exact ⟨hrn, regList_ne_nil_of_ne_zero hn hlist⟩

/-- A base outside the list has a cell of its own. -/
theorem bankIndex_ne_base {m : BitVec 5} {rl : List Reg} {rn : Reg} (hrn : rn ≠ 15#4) (hl : rn ∉ rl) :
    ∀ r ∈ rl, r ≠ 15#4 → bankIndex m r ≠ bankIndex m rn :=
  fun r hr h15 he => hl (bankIndex_inj m r rn h15 hrn he ▸ hr)

/-- A base that is written back is not in the list (R391). -/
theorem base_notMem_of_baseInList {n : Nat} {w : Bool} {rn : Reg} {list : BitVec n}
    (h : firstDefect [(w && inList list rn, .baseInList)] = none) (hw : w = true) : rn ∉ regList list := by
  obtain ⟨hlisted, -⟩ := firstDefect_cons.mp h
  rw [hw, Bool.true_and] at hlisted
  exact inList_eq_false.mp hlisted

/-- The list of LDM (3) is that of its fifteen bits, and R15. -/
theorem mem_regList_withPc {list : BitVec 15} {r : Reg} : r ∈ regList (1#1 ++ list) ↔ r = 15#4 ∨ r ∈ regList list := by
  have hbit : (1#1 ++ list).getLsbD r.toNat = (decide (r.toNat = 15) || list.getLsbD r.toNat) := by
    rw [BitVec.getLsbD_append]
    rcases Nat.lt_or_ge r.toNat 15 with h | h
    · simp [h, Nat.ne_of_lt h]
    · have h15 : r.toNat = 15 := by omega
      simp [h15]
  have hpc : r.toNat = 15 ↔ r = 15#4 := ⟨fun h => BitVec.eq_of_toNat_eq h, fun h => by rw [h]; rfl⟩
  rw [mem_regList, mem_regList, hbit, Bool.or_eq_true, decide_eq_true_eq, hpc]

/-- The list of POP: its registers are low, but for R15. -/
theorem popList_nodup (list : BitVec 8) (pc : Bool) : (regList list ++ if pc then [15#4] else []).Nodup := by
  cases pc with
  | false => simpa using regList_nodup list
  | true =>
    rw [if_pos rfl, List.nodup_append]
    refine ⟨regList_nodup list, List.nodup_singleton _, fun a ha b hb he => ?_⟩
    have hlow := toNat_lt_of_mem_regList ha
    rw [he, List.mem_singleton.mp hb] at hlow
    exact absurd hlow (by decide)

theorem sp_notMem_popList (list : BitVec 8) (pc : Bool) : (13#4 : Reg) ∉ regList list ++ if pc then [15#4] else [] := by
  intro h
  rcases List.mem_append.mp h with h | h
  · exact absurd (toNat_lt_of_mem_regList h) (by decide)
  · cases pc
    · cases h
    · exact absurd (List.mem_singleton.mp h) (by decide)

/-! ## The words of a block load -/

/-- The words of a block load that began in `s` are loaded in `t` and the base is written back; the PC has not moved. -/
structure BlockWords (m : BitVec 5) (rl : List Reg) (start : Word) (wb : Option (Reg × Word)) (s t : State) : Prop where
  done : BlockLoadDone m rl start wb s t
  pc : t.pc = s.pc
  cpsr : t.cpsr = s.cpsr

section
variable {m : BitVec 5} {rl : List Reg} {start : Word} {s t : State}

/-- What follows the words moves only the PC, the CPSR and the pipeline. -/
theorem BlockLoadDone.goesOn {wb : Option (Reg × Word)} (h : BlockLoadDone m rl start wb s t) (pc cpsr : Word) (pipe : Pipe) :
    BlockLoadDone m rl start wb s { t with pc := pc, cpsr := cpsr, pipe := pipe } := h

theorem BlockWords.fallsThrough {wb : Option (Reg × Word)} (h : BlockWords m rl start wb s t) : FallsThrough s t.advance := by
  rw [FallsThrough, State.advance_pc, h.pc, width_of_cpsr (congrArg bitT h.cpsr)]

theorem BlockWords.advance {wb : Option (Reg × Word)} (h : BlockWords m rl start wb s t) :
    t.advance.cpsr = s.cpsr ∧ FallsThrough s t.advance ∧ BlockLoadDone m rl start wb s t.advance :=
  ⟨h.cpsr, h.fallsThrough, h.done.goesOn ..⟩

/-- Loading words writes no SPSR, and leaves the mode. -/
theorem BlockWords.spsrOf {wb : Option (Reg × Word)} (h : BlockWords m rl start wb s t) : t.spsrOf t.mode = s.spsrOf s.mode := by
  obtain ⟨-, -, -, -, -, hspsr, -⟩ := h.done
  rw [State.spsrOf, State.spsrOf, State.mode, State.mode, h.cpsr, hspsr]

/-- An instruction whose body is a block load of answered words goes on from them with the word at the last address. -/
theorem blockLoad_words {i : Instr} {rn : Reg} {wb : Option Word} {fin : Word → State → Result}
    (hx : exec i s = blockLoad m rl start rn wb (s.executed true) fin) (hread : BlockReadable s start rl.length) (hne : rl ≠ [])
    (hn : rl.Nodup) (hwb : wb.isSome = true → rn ≠ 15#4 ∧ ∀ r ∈ rl, r ≠ 15#4 → bankIndex m r ≠ bankIndex s.mode rn) :
    ∃ t, exec i s = fin (busWordAt s.pins.bigend s.mem (wordAddr start (rl.length - 1))) t ∧
      BlockWords m rl start (wb.map fun v => (rn, v)) s t := by
  have hpos := List.length_pos_of_ne_nil hne
  obtain ⟨hd, hb, -⟩ := hread.2 0 hpos
  obtain ⟨t, ht, hdone, hpc, hcpsr⟩ := blockLoad_done (s := s.executed true) (fin := fin) hread hd hb hn hwb
  refine ⟨t, ?_, hdone, hpc, hcpsr⟩
  rw [hx, ht, pcWord_block _ _ (Nat.ne_of_gt hpos)]
  rfl

/-! ## The rows -/

theorem ldm1_words {c : Cond} {p u w : Bool} {rn : Reg} {list : BitVec 16} (h : Runs (.ldm1 c p u w rn list) s)
    (hread : BlockReadable s (blockStart p u (s.reg rn) (regList list).length) (regList list).length) :
    ∃ t, exec (.ldm1 c p u w rn list) s = (if list.getLsbD 15 then
        .next (t.branchTo (busWordAt s.pins.bigend s.mem
          (wordAddr (blockStart p u (s.reg rn) (regList list).length) ((regList list).length - 1)) &&& 0xFFFFFFFC#32))
        else .next t.advance) ∧
      BlockWords s.mode (regList list) (blockStart p u (s.reg rn) (regList list).length)
        (if w then some (rn, blockEnd u (s.reg rn) (regList list).length) else none) s t := by
  obtain ⟨hrn, hne⟩ := base_and_list_of_blockDefect (Nat.le_refl 16) h.checks
  have hbase := base_notMem_of_baseInList (firstDefect_append.mp h.checks).2
  have hx := run_ldm1 h
  rw [ldmPlain] at hx
  obtain ⟨t, hx, hwords⟩ := blockLoad_words hx hread hne (regList_nodup list) (by
    cases w with
    | false => exact nofun
    | true => exact fun _ => ⟨hrn, bankIndex_ne_base hrn (hbase rfl)⟩)
  rw [Option.map_if] at hwords
  exact ⟨t, hx, hwords⟩

/-- LDM (3), in a mode that has an SPSR. -/
theorem ldm3_words {c : Cond} {p u w : Bool} {rn : Reg} {list : BitVec 15} (h : Runs (.ldm3 c p u w rn list) s)
    (hs : s.spsrOf s.mode ≠ none)
    (hread : BlockReadable s (blockStart p u (s.reg rn) (regList (1#1 ++ list)).length) (regList (1#1 ++ list)).length) :
    ∃ t, exec (.ldm3 c p u w rn list) s = t.exceptionReturn (busWordAt s.pins.bigend s.mem
        (wordAddr (blockStart p u (s.reg rn) (regList (1#1 ++ list)).length) ((regList (1#1 ++ list)).length - 1))) ∧
      BlockWords s.mode (regList (1#1 ++ list)) (blockStart p u (s.reg rn) (regList (1#1 ++ list)).length)
        (if w then some (rn, blockEnd u (s.reg rn) (regList (1#1 ++ list)).length) else none) s t := by
  obtain ⟨hblock, hin⟩ := firstDefect_append.mp h.checks
  obtain ⟨hpc, -⟩ := firstDefect_cons.mp hblock
  have hrn := isPc_eq_false.mp hpc
  have hbase : w = true → rn ∉ regList (1#1 ++ list) := fun hw hmem =>
    (mem_regList_withPc.mp hmem).elim hrn (base_notMem_of_baseInList hin hw)
  obtain ⟨q, hq⟩ := Option.ne_none_iff_exists'.mp hs
  have hx := run_ldm3 h
  rw [ldmReturn, State.executed_spsrOf, State.executed_mode, hq] at hx
  obtain ⟨t, hx, hwords⟩ := blockLoad_words hx hread (List.ne_nil_of_mem (mem_regList_withPc.mpr (.inl rfl))) (regList_nodup _) (by
    cases w with
    | false => exact nofun
    | true => exact fun _ => ⟨hrn, bankIndex_ne_base hrn (hbase rfl)⟩)
  rw [Option.map_if] at hwords
  exact ⟨t, hx, hwords⟩

theorem pop_words {pc : Bool} {list : BitVec 8} (hrl : regList list ++ (if pc then [15#4] else []) = rl)
    (h : Runs (.tPop pc list) s) (hread : BlockReadable s (s.reg 13#4) rl.length) :
    ∃ t, exec (.tPop pc list) s = (if pc then
        .next (t.branchTo (busWordAt s.pins.bigend s.mem (wordAddr (s.reg 13#4) (rl.length - 1)) &&& 0xFFFFFFFE#32))
        else .next t.advance) ∧
      BlockWords s.mode rl (s.reg 13#4) (some (13#4, s.reg 13#4 + BitVec.ofNat 32 (4 * rl.length))) s t := by
  subst hrl
  have hne : regList list ++ (if pc then [15#4] else []) ≠ [] := by
    cases pc with
    | true => simp
    | false =>
      have hlist := h.checks
      simp only [Instr.checks, firstDefect_cons, Bool.not_false, Bool.true_and, beq_eq_false_iff_ne] at hlist
      exact List.append_ne_nil_of_left_ne_nil (regList_ne_nil_of_ne_zero (by decide) hlist.1) _
  have hx := run_tPop h
  rw [popOp] at hx
  exact blockLoad_words hx hread hne (popList_nodup list pc)
    fun _ => ⟨by decide, bankIndex_ne_base (by decide) (sp_notMem_popList list pc)⟩

theorem tLdmia_words {rb : LowReg} {list : BitVec 8} (h : Runs (.tLdmia rb list) s)
    (hread : BlockReadable s (s.reg (lowReg rb)) (regList list).length) :
    ∃ t, exec (.tLdmia rb list) s = .next t.advance ∧ BlockWords s.mode (regList list) (s.reg (lowReg rb))
      (if lowReg rb ∈ regList list then none
        else some (lowReg rb, s.reg (lowReg rb) + BitVec.ofNat 32 (4 * (regList list).length))) s t := by
  have hlist := h.checks
  simp only [Instr.checks, firstDefect_cons, beq_eq_false_iff_ne] at hlist
  have hx := run_tLdmia h
  rw [ldmiaOp] at hx
  obtain ⟨t, hx, hwords⟩ := blockLoad_words hx hread (regList_ne_nil_of_ne_zero (by decide) hlist.1)
    (regList_nodup list) (by
      cases hin : inList list (lowReg rb) with
      | true => exact nofun
      | false => exact fun _ => ⟨lowReg_ne rb, bankIndex_ne_base (lowReg_ne rb) (inList_eq_false.mp hin)⟩)
  refine ⟨t, hx, ?_⟩
  by_cases hin : lowReg rb ∈ regList list
  · rw [if_pos (inList_iff.mpr hin)] at hwords
    rw [if_pos hin]
    exact hwords
  · rw [if_neg (by rw [inList_eq_false.mpr hin]; exact Bool.false_ne_true)] at hwords
    rw [if_neg hin]
    exact hwords

/-- LDM (2), in a mode that has a bank of its own. -/
theorem ldm2_words {c : Cond} {p u w : Bool} {rn : Reg} {list : BitVec 15} (h : Runs (.ldm2 c p u w rn list) s)
    (hm : hasUserForm s.mode = true)
    (hread : BlockReadable s (blockStart p u (s.reg rn) (regList list).length) (regList list).length) :
    ∃ t, exec (.ldm2 c p u w rn list) s = .next t.advance.afterUserBank ∧
      BlockWords usrMode (regList list) (blockStart p u (s.reg rn) (regList list).length) none s t := by
  obtain ⟨-, hne⟩ := base_and_list_of_blockDefect (by decide) h.checks
  have hx := run_ldm2 h
  rw [ldmUser, State.executed_mode, if_pos hm] at hx
  exact blockLoad_words hx hread hne (regList_nodup list) nofun

theorem ldm2_refused {c : Cond} {p u w : Bool} {rn : Reg} {list : BitVec 15} (h : Runs (.ldm2 c p u w rn list) s)
    (hm : hasUserForm s.mode = false) : exec (.ldm2 c p u w rn list) s = .refused (.unpredictable .noUserBank) := by
  rw [run_ldm2 h, ldmUser, State.executed_mode, hm, if_neg Bool.false_ne_true]

/-! ## Another master between two words -/

/-- Of two words the later one is read from what another master has left (20_memory.md R142). -/
theorem readWords_pair {a b : Word} {ws : List (Word × Byte)} {gaps : List (List (Word × Byte))}
    (ho : s.sys.others = ws :: gaps) (ha : Readable s a .word false) (hb : Readable s b .word false) :
    (readWords [a, b] s).1 = [some (busWordAt s.pins.bigend s.mem a), some (busWordAt s.pins.bigend
        (Memory.writeAll s.mem (ws.map fun x => (x.1.toNat, x.2))) b)] ∧
      (readWords [a, b] s).2.bus.map (fun e => (e.seq, e.more)) =
        (true, false) :: (false, true) :: s.bus.map fun e => (e.seq, e.more) := by
  set t := s.accessed (s.event a .word false (s.busRead .word a) false ⟨false, false, true⟩) (busWordAt s.pins.bigend s.mem a) with ht
  set u := { t with
    mem := Memory.writeAll s.mem (ws.map fun x : Word × Byte => (x.1.toNat, x.2)), sys := { s.sys with others := gaps } } with hu
  have hfirst : s.readData a .word false ⟨false, false, true⟩ = (some (s.busRead .word a), t) := by
    rw [State.readData_ok ha, State.spend_eq ha.2.1]
  have hgap : t.between [b] = u := by
    rw [State.between, List.isEmpty_cons, if_neg Bool.false_ne_true, State.othersAct_cons (by exact ho)]
    rfl
  have hlast : u.readData b .word false ⟨false, true, false⟩ = (some (u.busRead .word b),
      u.accessed (u.event b .word false (u.busRead .word b) false ⟨false, true, false⟩) (busWordAt u.pins.bigend u.mem b)) := by
    rw [State.readData_ok (s := u) (by exact hb), State.spend_eq (s := u) hb.2.1]
  have hrun : readWords [a, b] s = ([some (s.busRead .word a), some (u.busRead .word b)],
      u.accessed (u.event b .word false (u.busRead .word b) false ⟨false, true, false⟩) (busWordAt u.pins.bigend u.mem b)) := by
    simp only [readWords, readRun, List.isEmpty_cons, List.isEmpty_nil, Bool.not_false, Bool.not_true, hfirst, hgap, hlast,
      Option.isNone_some, Bool.false_and, Bool.false_eq_true, if_false]
    rfl
  rw [hrun]
  exact ⟨rfl, rfl⟩

end

/-- Settles O31: the words of each row, and that it goes on at the next instruction. -/
theorem loadMultiple : Obligations.LoadMultiple := by
  unfold Obligations.LoadMultiple
  intro s
  refine ⟨?ldm1, ?ldm2, fun c p u w rn list => ldm2_refused, ?ldmia, ?pop, fun a b ws gaps => readWords_pair⟩
  case ldm1 =>
    intro c p u w rn list rl h hpc hread
    obtain ⟨t, hx, hwords⟩ := ldm1_words h hread
    rw [hpc, if_neg Bool.false_ne_true] at hx
    exact ⟨_, hx, hwords.advance⟩
  case ldm2 =>
    intro c p u w rn list rl h hm hread
    obtain ⟨t, hx, hwords⟩ := ldm2_words h hm hread
    exact ⟨_, hx, hwords.cpsr, hwords.fallsThrough, rfl, hwords.done.goesOn ..⟩
  case ldmia =>
    intro rb list rl h hread
    obtain ⟨t, hx, hwords⟩ := tLdmia_words h hread
    exact ⟨_, hx, hwords.advance⟩
  case pop =>
    intro list rl h hread
    obtain ⟨t, hx, hwords⟩ := pop_words (List.append_nil _) h hread
    exact ⟨_, hx, hwords.advance⟩

/-- Settles O32: the words of each row, and that it goes on at the last of them. -/
theorem loadMultipleToPc : Obligations.LoadMultipleToPc := by
  unfold Obligations.LoadMultipleToPc
  intro s
  refine ⟨?ldm1, ?ldm3, ?ldm3Refused, ?pop⟩
  case ldm1 =>
    intro c p u w rn list rl start h hpc hread
    obtain ⟨t, hx, hwords⟩ := ldm1_words h hread
    rw [hpc, if_pos rfl] at hx
    exact ⟨_, hx, hwords.cpsr, rfl, hwords.done.goesOn ..⟩
  case ldm3 =>
    intro c p u w rn list q rl start h hq hlegal hread
    obtain ⟨t, hx, hwords⟩ := ldm3_words h (by rw [hq]; exact nofun) hread
    rw [State.exceptionReturn_done (hwords.spsrOf.trans hq) hlegal] at hx
    exact ⟨_, hx, rfl, (apply_ite _ _ _ _).symm, hwords.done.goesOn ..⟩
  case ldm3Refused =>
    intro c p u w rn list rl h
    refine ⟨fun hnone => ?_, fun q hq hillegal hread => ?_⟩
    · rw [run_ldm3 h, ldmReturn, State.executed_spsrOf, State.executed_mode, hnone]
    · obtain ⟨t, hx, hwords⟩ := ldm3_words h (by rw [hq]; exact nofun) hread
      rw [hx, State.exceptionReturn, hwords.spsrOf, hq]
      simp only [hillegal, Bool.false_eq_true, if_false]
  case pop =>
    intro list rl h hread
    obtain ⟨t, hx, hwords⟩ := pop_words rfl h hread
    exact ⟨_, hx, hwords.cpsr, rfl, hwords.done.goesOn ..⟩

end Sys2Proof.Machine
end

section
/-!
PROOFS. 44_arm_load_store_multiple_swap.md R393, R397, R399, 48_thumb_memory_branch.md R592, R620, R629 and 60_exceptions.md R683 to R685:
the block stores, and the block transfers one of whose words is aborted. What a row stores is said once; that its words are accepted or
one of them is aborted is then a fact of `writeWords`.
-/

namespace Sys2Proof.Machine

/-! ## Accepted and aborted words -/

/-- The Data Abort is entered from `s`, with memory as an aborted block store leaves it. -/
def StoreAborted (start : Word) (vals : List Word) (s t : State) : Prop :=
  Enters .dataAbort (s.pc + 8#32) s t ∧ PartlyStored start vals s t

section
variable {start : Word} {rl : List Reg} {f : Reg → Word} {rn : Reg} {wb : Option Word} {s : State}

/-- A list of a few registers, accepted: there is a first word, so no access is withheld by debug state or reset. -/
theorem blockStore_accepted (h : BlockWritable s start rl.length) (hne : rl ≠ []) (hl : rl.length ≤ 17)
    (hrn : wb.isSome = true → rn ≠ 15#4) :
    ∃ t, blockStore start (rl.map f) rn wb s = .next t ∧ BlockStoreDone start (rl.map f) (wb.map fun v => (rn, v)) s t := by
  obtain ⟨hd, hb, -⟩ := h.2 0 (List.length_pos_of_ne_nil hne)
  exact blockStore_done (by rwa [List.length_map]) hd hb (by rw [List.length_map]; omega) hrn

/-- Accepted words with no write-back, before execution goes on. -/
theorem writeWords_accepted (h : BlockWritable s start rl.length) (hne : rl ≠ []) (hl : rl.length ≤ 17) :
    ∃ t, writeWords ((blockAddrs start rl.length).zip (rl.map f)) s = (false, t) ∧
      BlockStoreDone start (rl.map f) none s t.advance := by
  obtain ⟨hd, hb, -⟩ := h.2 0 (List.length_pos_of_ne_nil hne)
  obtain ⟨t, hx, -⟩ := writeWords_ok (s := s) (vals := rl.map f) (by rwa [List.length_map]) hd hb (by rw [List.length_map]; omega)
  obtain ⟨u, hu, hdone⟩ := blockStore_accepted (f := f) (rn := 0#4) (wb := none) h hne hl nofun
  rw [blockStore, hx] at hu
  obtain rfl := Host.Outcome.next.inj hu
  rw [List.length_map] at hx
  exact ⟨t, hx, hdone⟩

theorem writeWords_aborted (h : BlockAborts s start rl.length true) (hl : rl.length ≤ 17) :
    ∃ t, writeWords ((blockAddrs start rl.length).zip (rl.map f)) s = (true, t) ∧
      StoreAborted start (rl.map f) s t.takeDataAbort := by
  rw [← List.length_map f] at h hl ⊢
  obtain ⟨t, hx, henters⟩ := blockStore_aborted h
  obtain ⟨halone, hd, hb, -⟩ := h
  have hpart := writeWords_partly (start := start) (vals := rl.map f) halone hd hb (by omega)
  rw [hx] at hpart
  exact ⟨t, hx, henters, by simpa only [PartlyStored, State.byteAt, State.takeDataAbort_mem] using hpart⟩

theorem blockStore_aborts (h : BlockAborts s start rl.length true) (hl : rl.length ≤ 17) :
    ∃ t, blockStore start (rl.map f) rn wb s = .next t ∧ StoreAborted start (rl.map f) s t := by
  obtain ⟨t, hx, habort⟩ := writeWords_aborted (f := f) h hl
  exact ⟨_, by rw [blockStore, List.length_map, hx], habort⟩

end

/-! ## What the rows store -/

section
variable {c : Cond} {p u w : Bool} {rn : Reg} {s : State}

/-- The bound on lists that is used for every row: PUSH has one register more than its list field. -/
theorem regList_length_le_17 {n : Nat} (list : BitVec n) : (regList list).length ≤ 17 := (regList_length_le list).trans (by decide)

theorem run_stm1_blockStore {list : BitVec 16} (h : Runs (.stm1 c p u w rn list) s) :
    exec (.stm1 c p u w rn list) s = blockStore (blockStart p u (s.reg rn) (regList list).length)
      ((regList list).map s.storedReg) rn (if w then some (blockEnd u (s.reg rn) (regList list).length) else none)
      (s.executed true) := run_stm1 h

/-- The words STM (2) stores: the User bank, and R15 (R399). -/
def State.userStored (s : State) (r : Reg) : Word := if r = 15#4 then s.pcStored else s.bankReg usrMode r

/-- STM (2), in a mode that has a bank of its own. -/
theorem run_stm2_writeWords {list : BitVec 16} (h : Runs (.stm2 c p u w rn list) s) (hm : hasUserForm s.mode = true) :
    exec (.stm2 c p u w rn list) s =
      match writeWords ((blockAddrs (blockStart p u (s.reg rn) (regList list).length) (regList list).length).zip
        ((regList list).map s.userStored)) (s.executed true) with
      | (true, t) => .next t.takeDataAbort
      | (false, t) => .next t.advance.afterUserBank := by
  rw [run_stm2 h, stmUser, State.executed_mode, if_pos hm]
  rfl

theorem stm2_refused {list : BitVec 16} (h : Runs (.stm2 c p u w rn list) s) (hm : hasUserForm s.mode = false) :
    exec (.stm2 c p u w rn list) s = .refused (.unpredictable .noUserBank) := by
  rw [run_stm2 h, stmUser, State.executed_mode, hm, if_neg Bool.false_ne_true]

/-- The registers PUSH stores. -/
def pushList (lr : Bool) (list : BitVec 8) : List Reg := regList list ++ if lr then [14#4] else []

theorem pushList_length_le (lr : Bool) (list : BitVec 8) : (pushList lr list).length ≤ 17 := by
  have hle := regList_length_le list
  cases lr <;> simp [pushList] <;> omega

theorem pushList_ne_nil {lr : Bool} {list : BitVec 8} (h : Runs (.tPush lr list) s) : pushList lr list ≠ [] := by
  cases lr with
  | true => exact List.append_ne_nil_of_right_ne_nil _ (List.cons_ne_nil 14#4 [])
  | false =>
    obtain ⟨hlist, -⟩ := firstDefect_cons.mp h.checks
    rw [Bool.not_false, Bool.true_and, beq_eq_false_iff_ne] at hlist
    exact List.append_ne_nil_of_left_ne_nil (regList_ne_nil_of_ne_zero (by decide) hlist) _

theorem run_tPush_blockStore {lr : Bool} {list : BitVec 8} (h : Runs (.tPush lr list) s) :
    exec (.tPush lr list) s = blockStore (s.reg 13#4 - BitVec.ofNat 32 (4 * (pushList lr list).length))
      ((pushList lr list).map s.reg) 13#4 (some (s.reg 13#4 - BitVec.ofNat 32 (4 * (pushList lr list).length)))
      (s.executed true) := run_tPush h

/-- The base is in the list and another register stands first in it (R629). -/
theorem baseNotLowest_iff {rb : LowReg} {list : BitVec 8} :
    baseNotLowest rb list = true ↔ lowReg rb ∈ regList list ∧ (regList list).head? ≠ some (lowReg rb) := by
  rw [baseNotLowest, Bool.and_eq_true, inList_iff]
  exact and_congr_right belowInList_iff_head

/-- The words STMIA stores, with `v` for a base that is not the lowest of its list. -/
def State.stmiaStored (s : State) (rb : LowReg) (list : BitVec 8) (v : Word) (r : Reg) : Word :=
  if r = lowReg rb ∧ (regList list).head? ≠ some r then v else s.reg r

/-- Where STMIA is not refused, the value for such a base is the free word it draws (log 12). -/
theorem run_tStmia_blockStore {rb : LowReg} {list : BitVec 8} (h : Runs (.tStmia rb list) s)
    (hs : s.pins.strict = false ∨ baseNotLowest rb list = false) :
    exec (.tStmia rb list) s = blockStore (s.reg (lowReg rb)) ((regList list).map (s.stmiaStored rb list s.freeWord)) (lowReg rb)
      (some (s.reg (lowReg rb) + BitVec.ofNat 32 (4 * (regList list).length))) (s.executed true).drawn := by
  have hvals : (regList list).map (stmiaValue rb list (s.executed true)) =
      (regList list).map (s.stmiaStored rb list s.freeWord) := by
    refine List.map_congr_left fun r hr => ?_
    simp only [stmiaValue, belowInList_iff_head hr]
    rfl
  rw [run_tStmia h, stmiaOp_eq (s := s.executed true) hs, hvals]
  rfl

theorem stmiaList_ne_nil {rb : LowReg} {list : BitVec 8} (h : Runs (.tStmia rb list) s) : regList list ≠ [] := by
  obtain ⟨hlist, -⟩ := firstDefect_cons.mp h.checks
  exact regList_ne_nil_of_ne_zero (by decide) (beq_eq_false_iff_ne.mp hlist)

end

/-- Settles O33: each row is the block store of its words, or of them with the hazard of STM (2) behind it. -/
theorem storeMultiple : Obligations.StoreMultiple := by
  unfold Obligations.StoreMultiple
  intro s
  refine ⟨?stm1, ?stm2, fun c p u w rn list => stm2_refused, ?stmia, fun rb list => ⟨baseNotLowest_iff, ?stmiaRefused⟩, ?push⟩
  case stm1 =>
    intro c p u w rn list rl start h hw
    obtain ⟨hrn, hne⟩ := base_and_list_of_blockDefect (Nat.le_refl 16) h.checks
    obtain ⟨t, hx, hdone⟩ := blockStore_accepted (s := s.executed true) hw hne (regList_length_le_17 list) fun _ => hrn
    rw [Option.map_if] at hdone
    exact ⟨t, (run_stm1_blockStore h).trans hx, hdone⟩
  case stm2 =>
    intro c p u w rn list rl start h hm hw
    obtain ⟨-, hne⟩ := base_and_list_of_blockDefect (Nat.le_refl 16) h.checks
    obtain ⟨t, hx, hdone⟩ := writeWords_accepted (s := s.executed true) (f := s.userStored) hw hne (regList_length_le_17 list)
    exact ⟨t.advance.afterUserBank, by rw [run_stm2_writeWords h hm, hx], rfl, hdone⟩
  case stmia =>
    intro rb list rl h hs hw
    obtain ⟨t, hx, hdone⟩ := blockStore_accepted (s := (s.executed true).drawn) hw (stmiaList_ne_nil h)
      (regList_length_le_17 list) fun _ => lowReg_ne rb
    exact ⟨t, s.freeWord, (run_tStmia_blockStore h hs).trans hx, hdone⟩
  case stmiaRefused =>
    intro h hs hbase
    rw [run_tStmia h]
    exact stmiaOp_refused hs hbase
  case push =>
    intro lr list rl start h hw
    obtain ⟨t, hx, hdone⟩ := blockStore_accepted (s := s.executed true) (rl := pushList lr list) hw (pushList_ne_nil h)
      (pushList_length_le lr list) fun _ => show 13#4 ≠ 15#4 by decide
    exact ⟨t, (run_tPush_blockStore h).trans hx, hdone⟩

/-- Settles O34: a load enters the Data Abort by `blockLoad_aborted`, a store by `blockStore_aborts`. -/
theorem abortedBlocks : Obligations.AbortedBlocks := by
  unfold Obligations.AbortedBlocks
  intro s
  refine ⟨?ldm1, ?ldm2, ?ldm3, ?ldmia, ?pop, ?stm1, ?stm2, ?stmia, ?push⟩
  case ldm1 =>
    intro c p u w rn list rl h ha
    rw [run_ldm1 h, ldmPlain]
    exact blockLoad_aborted (s := s.executed true) ha
  case ldm2 =>
    intro c p u w rn list rl h hm ha
    rw [run_ldm2 h, ldmUser, State.executed_mode, if_pos hm]
    exact blockLoad_aborted (s := s.executed true) ha
  case ldm3 =>
    intro c p u w rn list rl h hs ha
    obtain ⟨q, hq⟩ := Option.ne_none_iff_exists'.mp hs
    rw [run_ldm3 h, ldmReturn, State.executed_spsrOf, State.executed_mode, hq]
    exact blockLoad_aborted (s := s.executed true) ha
  case ldmia =>
    intro rb list rl h ha
    rw [run_tLdmia h, ldmiaOp]
    exact blockLoad_aborted (s := s.executed true) ha
  case pop =>
    intro pc list rl h ha
    rw [run_tPop h, popOp]
    exact blockLoad_aborted (s := s.executed true) ha
  case stm1 =>
    intro c p u w rn list rl h ha
    rw [run_stm1_blockStore h]
    exact blockStore_aborts (s := s.executed true) ha (regList_length_le_17 list)
  case stm2 =>
    intro c p u w rn list rl h hm ha
    obtain ⟨t, hx, habort⟩ := writeWords_aborted (s := s.executed true) (f := s.userStored) ha (regList_length_le_17 list)
    exact ⟨t.takeDataAbort, by rw [run_stm2_writeWords h hm, hx], habort⟩
  case stmia =>
    intro rb list rl h hs ha
    obtain ⟨t, hx, habort⟩ := blockStore_aborts (s := (s.executed true).drawn) ha (regList_length_le_17 list)
    exact ⟨t, s.freeWord, (run_tStmia_blockStore h hs).trans hx, habort⟩
  case push =>
    intro lr list rl h ha
    rw [run_tPush_blockStore h]
    exact blockStore_aborts (s := s.executed true) (rl := pushList lr list) ha (pushList_length_le lr list)

end Sys2Proof.Machine
end

section
/-!
PROOFS. 45_arm_branch_exception.md R431, R432, R436, R440, R445 and 48_thumb_memory_branch.md R612, R636, R644: the ARM branches, BX in
either state, and the instructions that enter an exception. What each shared body answers is said once; a row is then its body on the
executed state.
-/

namespace Sys2Proof.Machine

/-! ## B and BL -/

/-- A branch offset is scaled by the zeros appended to its field, and keeps its sign (R185, R431). -/
theorem signExtend_append_zero {n k : Nat} (off : BitVec n) :
    (off ++ 0#k).signExtend 32 = BitVec.ofInt 32 (2 ^ k * off.toInt) :=
  congrArg (BitVec.ofInt 32) BitVec.toInt_append_zero

theorem armOffset_eq_ofInt (off : BitVec 24) : armOffset off = BitVec.ofInt 32 (4 * off.toInt) := signExtend_append_zero off

section
variable {s : State}

theorem State.pcOperand_arm (ht : bitT s.cpsr = false) : s.pcOperand = s.pc + 8#32 := by simp [State.pcOperand, ht]

/-- Where B and BL go from ARM state. -/
theorem branchTarget_arm (ht : bitT s.cpsr = false) (off : BitVec 24) :
    s.pcOperand + armOffset off = s.pc + 8#32 + BitVec.ofInt 32 (4 * off.toInt) := by
  rw [State.pcOperand_arm ht, armOffset_eq_ofInt]

/-- A jump of an executed instruction that leaves a link writes the PC and the link register alone. -/
theorem jumpDone_linked {i : Instr} {r : Reg} {link a : Word} (hr : r ≠ 15#4)
    (h : exec i s = .next (((s.executed true).setReg r link).branchTo a)) : JumpDone i s a s.cpsr [(r, link)] := by
  refine ⟨_, h, rfl, by simp, ?_, onlyRegs_of_regs (onlyRegs_setReg_executed s r link) rfl, by simp [SameOutside]⟩
  intro x hx
  obtain rfl := List.mem_singleton.mp hx
  exact bankReg_setReg_executed s r link hr

end

/-- Settles O35: B is a jump, BL a jump that leaves a link in R14, both to `branchTarget_arm`. -/
theorem armBranches : Obligations.ArmBranches := by
  unfold Obligations.ArmBranches
  intro s c off ht
  rw [← branchTarget_arm ht off]
  exact ⟨fun h => jumpDone_branchTo (run_b h), fun h => jumpDone_linked (by decide) (run_bl h)⟩

/-! ## BX -/

/-- The two low bits of a word are 10, said bit by bit. -/
theorem lowBits_eq_two_iff {v : Word} : v.extractLsb' 0 2 = 0b10#2 ↔ v.getLsbD 0 = false ∧ v.getLsbD 1 = true := by
  constructor
  · intro h
    have hbit (k : Nat) (hk : k < 2) : v.getLsbD k = (0b10#2).getLsbD k := by simp [← h, hk]
    exact ⟨hbit 0 (by decide), hbit 1 (by decide)⟩
  · rintro ⟨h0, h1⟩
    refine BitVec.eq_of_getLsbD_eq fun k hk => ?_
    obtain rfl | rfl : k = 0 ∨ k = 1 := by omega
    · simpa using h0
    · simpa using h1

theorem exchangeOp_refused {v : Word} {s : State} (h0 : v.getLsbD 0 = false) (h1 : v.getLsbD 1 = true) :
    exchangeOp v s = .refused (.unpredictable .bxUnaligned) := if_pos (lowBits_eq_two_iff.mpr ⟨h0, h1⟩)

theorem exchangeOp_accepted {v : Word} {s : State} (h : v.getLsbD 0 = true ∨ v.getLsbD 1 = false) :
    exchangeOp v s = .next ((s.setCpsr (withT s.cpsr (v.getLsbD 0))).branchTo (v &&& 0xFFFFFFFE#32)) := by
  refine if_neg fun hlow => ?_
  obtain ⟨h0, h1⟩ := lowBits_eq_two_iff.mp hlow
  rw [h0, h1] at h
  exact absurd h (by decide)

/-- Settles O36: either row runs `exchangeOp` on its register, and what that accepts changes bit 5 of the CPSR alone
(`withT_getLsbD`). -/
theorem branchExchange : Obligations.BranchExchange := by
  unfold Obligations.BranchExchange
  intro s i v hi hr
  have hexec : exec i s = exchangeOp v (s.executed true) := by
    rcases hi with ⟨c, rm, rfl, rfl⟩ | ⟨h2, rs, rfl, rfl⟩
    · exact run_bx hr
    · exact run_tBx hr
  refine ⟨fun h0 h1 => hexec.trans (exchangeOp_refused h0 h1), fun h => ?_⟩
  exact ⟨_, hexec.trans (exchangeOp_accepted h), rfl, rfl, SameOutside.rfl' s, withT_getLsbD s.cpsr (v.getLsbD 0)⟩

/-! ## Instructions that enter an exception -/

/-- An executed instruction that raises an exception enters it from the state it began in: INSTREXEC is no part of what entry
saves or writes. -/
theorem enters_of_raise {i : Instr} {s : State} {e : Exc} {link : Word} (h : exec i s = .next ((s.executed true).raise e link)) :
    ∃ t, exec i s = .next t ∧ Enters e link s t ∧ SameWorld s t ∧ t.cop = s.cop :=
  ⟨_, h, Enters.from (State.raise_enters (s.executed true) e link) rfl rfl rfl rfl, State.raise_sameWorld (s.executed true) e link,
    State.raise_cop (s.executed true) e link⟩

/-- Settles O38: SWI of either state runs `swiOp`, which raises the exception. -/
theorem softwareInterrupt : Obligations.SoftwareInterrupt := by
  unfold Obligations.SoftwareInterrupt
  intro s i hi hr
  have hexec : exec i s = swiOp (s.executed true) := by
    rcases hi with ⟨c, imm, rfl⟩ | ⟨n, rfl⟩
    · exact run_swi hr
    · exact run_tSwi hr
  exact enters_of_raise hexec

/-- Settles O39: each of the ten rows runs `undefinedOp`, which raises the exception. -/
theorem undefinedInstruction : Obligations.UndefinedInstruction := by
  unfold Obligations.UndefinedInstruction
  intro s i hi hr
  have hexec : exec i s = undefinedOp (s.executed true) := by
    rcases hi with ⟨c, body, rfl | rfl | rfl | rfl | rfl | rfl | rfl⟩ | ⟨b, rfl⟩ | ⟨n, rfl⟩ | ⟨n, rfl⟩
    · exact run_undArith hr
    · exact run_undLsA hr
    · exact run_undLsB hr
    · exact run_undCtlReg hr
    · exact run_undCtlImm hr
    · exact run_undSpace hr
    · exact run_undCop hr
    · exact run_tUnd1011 hr
    · exact run_tUndDE hr
    · exact run_tUnd11101 hr
  exact enters_of_raise hexec

end Sys2Proof.Machine
end

section
/-!
PROOFS. 46_arm_coprocessor.md R464, R465, R470 to R473: the handshake. Every instruction that may be offered to a coprocessor runs
`handshake` on the executed state; what each answer but an acceptance leads to is said once, and so is what the handshake codes give.
-/

namespace Sys2Proof.Machine

/-! ## What a coprocessor instruction leaves alone -/

theorem SameButCop.refl (s : State) : SameButCop s s := ⟨rfl, rfl, rfl, rfl, rfl, rfl, rfl, rfl, rfl, rfl, rfl⟩

section
variable {s t : State}

theorem SameButCop.tell (h : SameButCop s t) (e : CpEvent) : SameButCop s (t.tell e) := h

theorem SameButCop.executed (h : SameButCop s t) (b : Bool) : SameButCop s (t.executed b) := h

theorem SameButCop.passed (h : SameButCop s t) : SameButCop s t.passed := h

theorem SameButCop.drawn (h : SameButCop s t) : SameButCop s t.drawn := h

theorem SameButCop.answered (h : SameButCop s t) (rest : List CpReply) : SameButCop s (t.answered rest) := h

theorem SameButCop.waiting (h : SameButCop s t) : SameButCop s t.waiting := h

theorem SameButCop.copTransfer (h : SameButCop s t) (onDa : Option Word) (write : Bool) (v : Word) :
    SameButCop s (t.copTransfer onDa write v) := h

theorem SameButCop.movedToArm (h : SameButCop s t) (rd : Reg) (v : Word) : SameButCop s (t.movedToArm rd v) := by
  simpa [SameButCop] using h

theorem SameButCop.advance (h : SameButCop s t) : SameButCop s t.advance := h

end

/-! ## The answers -/

section
variable {i : Instr} {s : State} {rest : List CpReply}

/-- An offered instruction that runs is a handshake of the executed state (R470). -/
theorem exec_offered (ho : offered i = true) (h : Runs i s) : ∃ go, exec i s = handshake i (s.executed true) go := by
  cases i <;> simp only [offered, bne_iff_ne, ne_eq, Bool.false_eq_true] at ho
  case stc c m => exact ⟨_, (run_stc h).trans (if_neg ho)⟩
  case ldc c m => exact ⟨_, (run_ldc h).trans (if_neg ho)⟩
  case cdp c o => exact ⟨_, (run_cdp h).trans (if_neg ho)⟩
  case mcr c o => exact ⟨_, (run_mcr h).trans (if_neg ho)⟩
  case mrc c o => exact ⟨_, (run_mrc h).trans (if_neg ho)⟩

variable {go : Nat → List Word → State → Result}

theorem handshake_wait (h : s.cop.replies = .wait :: rest) :
    handshake i s go = .next (s.passed.answered rest).waiting := by simp [handshake, h]

theorem handshake_stall (h : s.cop.replies = .stall :: rest) : handshake i s go = .next s.passed.waiting := by
  simp [handshake, h]

/-- PASS is HIGH whatever the coprocessors answer, where they do not accept (R462). -/
theorem handshake_absent_pass {t : State} (h : s.cop.replies = [] ∨ s.cop.replies = .absent :: rest)
    (ht : handshake i s go = .next t) : t.pass = true := by
  rcases h with h | h <;> simp only [handshake, h, Host.Outcome.next.injEq] at ht <;> subst ht <;> simp [State.takeUndefined]

end

/-! ## The handshake codes -/

theorem Chs.ofBits_bits (b : BitVec 2) : Chs.ofBits (bit (b.getLsbD 1) ++ bit (b.getLsbD 0)) = Chs.ofBits b := by
  revert b; decide

/-- A coprocessor that answers ABSENT does not disturb another's code: bit 1 is ANDed and bit 0 ORed (R464). -/
theorem Chs.combine_among_absent (b : BitVec 2) (m n : Nat) :
    Chs.combine (List.replicate m 0b10#2 ++ b :: List.replicate n 0b10#2) = Chs.ofBits b := by
  rw [← Chs.ofBits_bits b, Chs.combine]
  simp

section
variable (data : List Word)

/-- GO^j LAST, behind `k` GO answers. -/
theorem CpReply.ofCodes_go_last (more : List Chs) : ∀ j k : Nat,
    CpReply.ofCodes data k (List.replicate j .go ++ .last :: more) = [.accept (k + j) data]
  | 0, k => by simp [CpReply.ofCodes]
  | j + 1, k => by
    rw [List.replicate_succ, List.cons_append, CpReply.ofCodes, CpReply.ofCodes_go_last more j (k + 1)]
    congr 2
    omega

/-- Every WAIT ahead of the other codes is an answer of its own (R471). -/
theorem CpReply.ofCodes_wait (codes : List Chs) : ∀ w : Nat,
    CpReply.ofCodes data 0 (List.replicate w .wait ++ codes) = List.replicate w .wait ++ CpReply.ofCodes data 0 codes
  | 0 => rfl
  | w + 1 => by
    rw [List.replicate_succ, List.cons_append, CpReply.ofCodes, CpReply.ofCodes_wait codes w]
    rfl

end

/-- Settles O50: the answers of `handshake` other than an acceptance, and the codes that give the answers. -/
theorem coprocessorAbsentOrWaiting : Obligations.CoprocessorAbsentOrWaiting := by
  unfold Obligations.CoprocessorAbsentOrWaiting
  refine ⟨fun s i rest ho hr => ?answers, by decide, ⟨rfl, Chs.combine_among_absent⟩, fun data w k more => ?codes⟩
  case answers =>
    obtain ⟨go, hx⟩ := exec_offered ho hr
    rw [hx]
    refine ⟨fun h => ?absent, fun h => ?wait, fun h => ?stall⟩
    case absent =>
      obtain ⟨t, ht, henters, hworld⟩ := handshake_absent (i := i) (s := s.executed true) (go := go) h
      exact ⟨t, ht, henters.from rfl rfl rfl rfl, hworld, handshake_absent_pass (s := s.executed true) h ht⟩
    case wait =>
      exact ⟨_, handshake_wait (s := s.executed true) h, rfl, rfl, rfl, rfl, rfl, rfl, rfl,
        (((SameButCop.refl s).executed true).passed.answered rest).waiting⟩
    case stall =>
      exact ⟨_, handshake_stall (s := s.executed true) h, rfl, rfl, rfl, rfl, rfl, rfl,
        ((SameButCop.refl s).executed true).passed.waiting⟩
  case codes =>
    rw [CpReply.ofCodes_wait, CpReply.ofCodes_wait, CpReply.ofCodes_go_last, Nat.zero_add]
    exact ⟨rfl, rfl⟩

end Sys2Proof.Machine
end

section
/-!
PROOFS. 46_arm_coprocessor.md R471, R480 to R482, R488: CDP, MCR and MRC accepted. The state in which an accepted instruction goes on
is named once (`State.accepted`), and so is what a word moved to an ARM register leaves (`ArmMove`).
-/

namespace Sys2Proof.Machine

/-! ## Acceptance -/

/-- The coprocessors have accepted the running instruction: PASS is HIGH, the answer is used up, and they have the instruction with
the InTRANS level of its mode (R471, log 43). -/
def State.accepted (s : State) (i : Instr) (rest : List CpReply) : State :=
  ((s.executed true).passed.answered rest).tell (.instr i s.privileged)

section
variable {s : State} {i : Instr} {n : Nat} {data : List Word} {rest : List CpReply}

/-- Where the body of an accepted instruction goes on. -/
theorem handshake_accepted {go : Nat → List Word → State → Result} (h : Accepts s n data rest) :
    handshake i (s.executed true) go = go n data (s.accepted i rest) := handshake_accept (s := s.executed true) h

@[simp] theorem State.accepted_regs : (s.accepted i rest).regs = s.regs := rfl
@[simp] theorem State.accepted_pc : (s.accepted i rest).pc = s.pc := rfl
@[simp] theorem State.accepted_cpsr : (s.accepted i rest).cpsr = s.cpsr := rfl
@[simp] theorem State.accepted_width : (s.accepted i rest).width = s.width := rfl
@[simp] theorem State.accepted_pass : (s.accepted i rest).pass = true := rfl
@[simp] theorem State.accepted_port : (s.accepted i rest).port = s.port := rfl
@[simp] theorem State.accepted_cop : (s.accepted i rest).cop = ⟨rest, s.cop.log ++ [.instr i s.privileged]⟩ := rfl

theorem SameButCop.accepted (s : State) (i : Instr) (rest : List CpReply) : SameButCop s (s.accepted i rest) :=
  (((SameButCop.refl s).executed true).passed.answered rest).tell (.instr i s.privileged)

theorem exec_cdp_accepted {c : Cond} {o : CopData} (ha : Accepts s n data rest) (h : Runs (.cdp c o) s) (hcp : o.cp ≠ 14#4) :
    exec (.cdp c o) s = .next (s.accepted (.cdp c o) rest).advance := by
  rw [run_cdp h, cdpOp, if_neg hcp, handshake_accepted ha]

/-- What an MCR puts on DA, and on IA: its word, when coprocessor 15 asked for it with GO (R488). -/
def mcrOnDa (s : State) (o : CopReg) (n : Nat) : Option Word := if o.cp = 15#4 ∧ n ≠ 0 then some (s.reg o.rd) else none

theorem exec_mcr_accepted {c : Cond} {o : CopReg} (ha : Accepts s n data rest) (h : Runs (.mcr c o) s) (hcp : o.cp ≠ 14#4) :
    exec (.mcr c o) s = .next (((s.accepted (.mcr c o) rest).tell (.moved (s.reg o.rd))).copTransfer
      (mcrOnDa s o n) true (s.reg o.rd)).advance := by
  rw [run_mcr h, mcrOp, if_neg hcp, handshake_accepted ha]
  rfl

theorem exec_mrc_accepted {c : Cond} {o : CopReg} {v : Word} {vs : List Word} (ha : Accepts s n (v :: vs) rest)
    (h : Runs (.mrc c o) s) (hcp : o.cp ≠ 14#4) :
    exec (.mrc c o) s = .next (((s.accepted (.mrc c o) rest).copTransfer none false v).movedToArm o.rd v).advance := by
  rw [run_mrc h, mrcOp, if_neg hcp, handshake_accepted ha]

end

/-! ## A word moved to an ARM register -/

/-- The flags that MRC to R15 writes are the top bits of the word (R482). -/
theorem withNZCV_bitsFrom (p v : Word) :
    BitsFrom p v (withNZCV p (v.getLsbD 31) (v.getLsbD 30) (v.getLsbD 29) (v.getLsbD 28)) fun k => decide (28 ≤ k) := by
  intro k hk
  rw [withNZCV_getLsbD]
  rcases Nat.lt_or_ge k 28 with hlow | hhigh
  · simp [hlow, Nat.not_le.mpr hlow]
  · obtain rfl | rfl | rfl | rfl : k = 28 ∨ k = 29 ∨ k = 30 ∨ k = 31 := by omega
    all_goals rfl

/-- The word `v` has been moved to `rd`, or its top bits to the flags for R15, and execution goes on (R482). -/
structure ArmMove (rd : Reg) (v : Word) (s t : State) : Prop where
  reg : rd ≠ 15#4 → t.bankReg s.mode rd = v ∧ t.cpsr = s.cpsr
  flags : rd = 15#4 → BitsFrom s.cpsr v t.cpsr fun k => decide (28 ≤ k)
  only : OnlyRegs s.mode [rd] s t
  falls : FallsThrough s t

theorem State.movedToArm_pc15 (s : State) (v : Word) : s.movedToArm 15#4 v =
    s.setCpsr (withNZCV s.cpsr (v.getLsbD 31) (v.getLsbD 30) (v.getLsbD 29) (v.getLsbD 28)) := if_pos rfl

theorem State.movedToArm_reg {rd : Reg} (hrd : rd ≠ 15#4) (s : State) (v : Word) : s.movedToArm rd v = s.setReg rd v := if_neg hrd

theorem armMove_self (s : State) (rd : Reg) (v : Word) : ArmMove rd v s (s.movedToArm rd v).advance := by
  by_cases hrd : rd = 15#4
  · subst hrd
    rw [State.movedToArm_pc15]
    exact ⟨fun h => absurd rfl h, fun _ => withNZCV_bitsFrom s.cpsr v, OnlyRegs.of_eq rfl, by simp [FallsThrough, State.width]⟩
  · rw [State.movedToArm_reg hrd]
    obtain ⟨hreg, honly, hcpsr, hfalls⟩ := (OnlyAccesses.refl s).setReg_advance v hrd
    exact ⟨fun _ => ⟨hreg, hcpsr⟩, fun h => absurd h hrd, honly, hfalls⟩

/-- What the move starts from may differ from the state of the instruction, but not in registers, PC or CPSR. -/
theorem ArmMove.from {rd : Reg} {v : Word} {s u t : State} (h : ArmMove rd v u t) (hr : u.regs = s.regs) (hp : u.pc = s.pc)
    (hc : u.cpsr = s.cpsr) : ArmMove rd v s t := by
  have hmode : u.mode = s.mode := congrArg modeOf hc
  refine ⟨fun hrd => ?_, fun hrd => hc ▸ h.flags hrd, onlyRegs_from (hmode ▸ h.only) hr, ?_⟩
  · rw [← hmode, ← hc]
    exact h.reg hrd
  · rw [FallsThrough, h.falls, hp, width_of_cpsr (congrArg bitT hc)]

/-- Settles O51: each of the three goes on from `State.accepted`. -/
theorem coprocessorAccepted : Obligations.CoprocessorAccepted := by
  unfold Obligations.CoprocessorAccepted
  intro s go data rest ha
  refine ⟨?cdp, ?mcr, ?mrc⟩
  case cdp =>
    intro c o h hcp
    exact ⟨_, exec_cdp_accepted ha h hcp, by simp, by simp, by simp [FallsThrough], by simp, by simp, by simp,
      (SameButCop.accepted s (.cdp c o) rest).advance⟩
  case mcr =>
    intro c o h hcp
    refine ⟨_, exec_mcr_accepted ha h hcp, by simp, by simp, by simp [FallsThrough], by simp, by simp,
      State.copTransfer_shown (State.advance_port _) (fun hda => if_pos hda) (fun hda => if_neg hda),
      (((SameButCop.accepted s (.mcr c o) rest).tell _).copTransfer ..).advance⟩
  case mrc =>
    rintro c o v vs h hcp rfl
    have hmove := (armMove_self ((s.accepted (.mrc c o) rest).copTransfer none false v) o.rd v).from (s := s) (by simp) (by simp)
      (by simp)
    exact ⟨_, exec_mrc_accepted ha h hcp, hmove.reg, hmove.flags, hmove.only, hmove.falls, by simp, by simp,
      State.copTransfer_shown ((State.advance_port _).trans (State.movedToArm_port ..)) False.elim (fun _ => rfl),
      (((SameButCop.accepted s (.mrc c o) rest).copTransfer none false v).movedToArm o.rd v).advance⟩

end Sys2Proof.Machine
end

section
/-!
PROOFS. 46_arm_coprocessor.md R490 to R494, 10_state.md R70 and 61_debug.md R744: coprocessor 14. The three described transfers end like
MCR and MRC of any coprocessor; that every other form is refused is the case analysis of `cp14Reg`.
-/

namespace Sys2Proof.Machine

/-! ## The comms registers -/

/-- The comms control register: its version, and the W and R bits of one side (10_state.md R69, R70). -/
theorem commsControl_bits (s : State) (w r : Bool) : (commsControl s w r).extractLsb' 28 4 = 0b0010#4 ∧
    (commsControl s w r).getLsbD 1 = w ∧ (commsControl s w r).getLsbD 0 = r := by
  refine ⟨?version, ?w, ?r⟩
  case version =>
    refine BitVec.eq_of_getLsbD_eq fun k hk => ?_
    simp only [commsControl, BitVec.getLsbD_extractLsb', BitVec.getLsbD_append, hk]
    obtain rfl | rfl | rfl | rfl : k = 0 ∨ k = 1 ∨ k = 2 ∨ k = 3 := by omega
    all_goals rfl
  case w =>
    simp only [commsControl, BitVec.getLsbD_append]
    exact bit_getLsbD_zero w
  case r =>
    simp only [commsControl, BitVec.getLsbD_append]
    exact bit_getLsbD_zero r

/-- A register of coprocessor 14 is named by CRn, all other fields being zero (R490). -/
theorem cp14Reg_eq_some {o : CopReg} {b : Bool} (h : cp14Reg o = some b) :
    o.op1 = 0#3 ∧ o.op2 = 0#3 ∧ o.crm = 0#4 ∧ o.crn = if b then 1#4 else 0#4 := by
  unfold cp14Reg at h
  split at h
  · next hzero =>
    obtain ⟨hop1, hop2, hcrm⟩ := hzero
    refine ⟨hop1, hop2, hcrm, ?_⟩
    split at h
    · next hcrn => cases h; exact hcrn
    · split at h
      · next hcrn => cases h; exact hcrn
      · cases h
  · cases h

/-! ## The transfers -/

section
variable {s : State} {c : Cond} {o : CopReg}

theorem exec_mrc_control (h : Runs (.mrc c o) s) (hcp : o.cp = 14#4) (hreg : cp14Reg o = some false) :
    exec (.mrc c o) s = .next (((s.executed true).passed.drawn.copTransfer none false
      (commsControl s s.ice.wCore s.ice.rCore)).movedToArm o.rd (commsControl s s.ice.wCore s.ice.rCore)).advance := by
  rw [run_mrc h, mrcOp, if_pos hcp, hreg]
  rfl

theorem exec_mrc_data (h : Runs (.mrc c o) s) (hcp : o.cp = 14#4) (hreg : cp14Reg o = some true) :
    exec (.mrc c o) s = .next (((s.executed true).passed.commsTaken.copTransfer none false
      s.ice.commsRead).movedToArm o.rd s.ice.commsRead).advance := by
  rw [run_mrc h, mrcOp, if_pos hcp, hreg]
  rfl

theorem exec_mcr_data (h : Runs (.mcr c o) s) (hcp : o.cp = 14#4) (hreg : cp14Reg o = some true) :
    exec (.mcr c o) s = .next (((s.executed true).passed.commsPut (s.reg o.rd)).copTransfer none true (s.reg o.rd)).advance := by
  rw [run_mcr h, mcrOp, if_pos hcp, if_pos hreg]
  rfl

/-- The processor sees at once that W is set, or kept clear by nTRST (R492, 61_debug.md R744). -/
theorem State.commsPut_ice (s : State) (v : Word) : (s.commsPut v).ice =
    { s.ice with commsWrite := v, wBit := !s.pins.ntrstLow, wCore := !s.pins.ntrstLow } := rfl

theorem State.commsTaken_ice (s : State) : s.commsTaken.ice = { s.ice with rBit := false, rCore := false } := rfl

@[simp] theorem State.commsPut_width (s : State) (v : Word) : (s.commsPut v).width = s.width := rfl

/-- MCR to any register of coprocessor 14 but the data register (R494). -/
theorem exec_mcr_cp14_refused (h : Runs (.mcr c o) s) (hcp : o.cp = 14#4) (hreg : cp14Reg o ≠ some true) :
    exec (.mcr c o) s = .refused .cp14Undescribed := by
  rw [run_mcr h, mcrOp, if_pos hcp, if_neg hreg]

theorem exec_mrc_cp14_refused (h : Runs (.mrc c o) s) (hcp : o.cp = 14#4) (hreg : cp14Reg o = none) :
    exec (.mrc c o) s = .refused .cp14Undescribed := by
  rw [run_mrc h, mrcOp, if_pos hcp, hreg]

end

/-- What the comms bits do when they cross, and that they cross to one side only (10_state.md R70). -/
theorem Ice.sync_keeps (ice : Ice) (d : Bool) : (ice.sync d).wBit = ice.wBit ∧ (ice.sync d).rBit = ice.rBit ∧
    (ice.sync d).commsRead = ice.commsRead ∧ (ice.sync d).commsWrite = ice.commsWrite := by
  cases d <;> exact ⟨rfl, rfl, rfl, rfl⟩

theorem step_commsSync {s : State} {d : Bool} {rest : List Move} (h : s.schedule = .commsSync d :: rest) :
    step s = .next { s with schedule := rest, ice := s.ice.sync d } := by
  rw [step, h]
  rfl

/-- Settles O53: the three described transfers, the refusal of the other forms, and the move that brings the bits across. -/
theorem debugCommsChannel : Obligations.DebugCommsChannel := by
  unfold Obligations.DebugCommsChannel
  intro s c rd
  refine ⟨fun h => ?control, fun h => ?put, fun h => ?take, fun i hi h => ?refused, fun d rest h => ?sync⟩
  case control =>
    obtain ⟨hversion, hw, hr⟩ := commsControl_bits s s.ice.wCore s.ice.rCore
    have hmove := (armMove_self ((s.executed true).passed.drawn.copTransfer none false (commsControl s s.ice.wCore s.ice.rCore)) rd
      (commsControl s s.ice.wCore s.ice.rCore)).from (s := s) (by simp) (by simp) (by simp)
    exact ⟨_, _, exec_mrc_control h rfl rfl, hversion, hw, hr, hmove.reg, hmove.flags, hmove.only, hmove.falls, by simp,
      (((((SameButCop.refl s).executed true).passed.drawn.copTransfer none false _).movedToArm rd _).advance)⟩
  case put =>
    refine ⟨_, exec_mcr_data h rfl rfl, ?_⟩
    simp only [State.advance_ice, State.copTransfer_ice, State.commsPut_ice, commtx]
    simp [FallsThrough]
  case take =>
    have hmove := (armMove_self ((s.executed true).passed.commsTaken.copTransfer none false s.ice.commsRead) rd
      s.ice.commsRead).from (s := s) (by simp) (by simp) (by simp)
    refine ⟨_, exec_mrc_data h rfl rfl, hmove.reg, hmove.flags, ?_, ?_, ?_, ?_, hmove.only, hmove.falls, by simp, by simp⟩
    all_goals simp [State.commsTaken_ice, commrx]
  case refused =>
    rcases hi with ⟨o, rfl, hcp⟩ | ⟨m, rfl | rfl, hcp⟩ | ⟨o, rfl, hcp, hfields⟩ | ⟨o, rfl, hcp, hfields⟩
    · rw [run_cdp h, cdpOp, if_pos hcp]
    · rw [run_ldc h, ldcOp, if_pos hcp]
    · rw [run_stc h, stcOp, if_pos hcp]
    · refine exec_mcr_cp14_refused h hcp fun hreg => ?_
      obtain ⟨hop1, hop2, hcrm, hcrn⟩ := cp14Reg_eq_some hreg
      simp [hop1, hop2, hcrm, hcrn] at hfields
    · refine exec_mrc_cp14_refused h hcp (Option.eq_none_iff_forall_ne_some.mpr fun b hreg => ?_)
      obtain ⟨hop1, hop2, hcrm, hcrn⟩ := cp14Reg_eq_some hreg
      cases b <;> simp [hop1, hop2, hcrm, hcrn] at hfields
  case sync =>
    obtain ⟨hw, hr, hread, hwrite⟩ := s.ice.sync_keeps d
    refine ⟨_, step_commsSync h, rfl, rfl, rfl, hw, hr, hread, hwrite, ?_, ?_⟩
    · rintro rfl; exact ⟨rfl, rfl⟩
    · rintro rfl; exact ⟨rfl, rfl⟩

end Sys2Proof.Machine
end

section
/-!
PROOFS. 46_arm_coprocessor.md R483 to R486 and 60_exceptions.md R685: LDC and STC. An accepted STC is the block store of the supplied
words; an accepted LDC reads its words as a block load does, and the coprocessors are told of them.
-/

namespace Sys2Proof.Machine

/-! ## Addresses and words -/

/-- The offset counts words (R483). -/
theorem wordOffset_toNat (off : BitVec 8) : ((off ++ 0#2).setWidth 32).toNat = 4 * off.toNat := by
  rw [BitVec.toNat_setWidth_of_le (by decide), BitVec.toNat_append, ← Nat.shiftLeft_add_eq_or_of_lt (0#2).isLt, Nat.shiftLeft_eq,
    Nat.mul_comm]
  rfl

theorem CopMem.target_toNat (s : State) (m : CopMem) : ((CopMem.target s m).toNat : Int) =
    (if m.u then ((s.reg m.rn).toNat : Int) + 4 * m.off.toNat else ((s.reg m.rn).toNat : Int) - 4 * m.off.toNat) % 2 ^ 32 := by
  rw [CopMem.target, offsetBy_toNat, wordOffset_toNat]
  rfl

/-- A base that LDC and STC write back is not R15 (R483). -/
theorem base_ne_pc_of_writeBack {w : Bool} {rn : Reg} (h : firstDefect [(w && isPc rn, .writebackPc)] = none) (hw : w = true) :
    rn ≠ 15#4 := by
  obtain ⟨hpc, -⟩ := firstDefect_cons.mp h
  rw [hw, Bool.true_and] at hpc
  exact isPc_eq_false.mp hpc

/-- Whatever the coprocessor supplies, an STC has all its words (R485). -/
theorem stcWords_length (first : Nat) : ∀ (n : Nat) (data : List Word), (stcWords first n data).length = n
  | 0, _ => rfl
  | n + 1, _ :: rest => congrArg (· + 1) (stcWords_length first n rest)
  | n + 1, [] => congrArg (· + 1) (stcWords_length first n [])

/-- Where it supplies them all, no word is free. -/
theorem stcWords_eq (first : Nat) : ∀ {n : Nat} {data : List Word}, data.length = n → stcWords first n data = data
  | 0, [], _ => rfl
  | _ + 1, w :: _, h => congrArg (w :: ·) (stcWords_eq first (Nat.succ.inj h))

/-! ## Told words -/

/-- Telling the coprocessors of words changes what they have received and nothing else (R484). -/
theorem State.tellWords_changes : ∀ (ws : List (Option Word)) (s : State),
    ∃ cop, State.tellWords ws s = { s with cop := cop }
  | some w :: rest, s => State.tellWords_changes rest (s.tell (.loaded w))
  | none :: _, s => ⟨s.cop, rfl⟩
  | [], s => ⟨s.cop, rfl⟩

theorem State.tellWords_cop : ∀ (ws : List Word) (s : State),
    (State.tellWords (ws.map some) s).cop = ⟨s.cop.replies, s.cop.log ++ ws.map .loaded⟩
  | [], s => by simp [State.tellWords]
  | w :: rest, s => by
    rw [List.map_cons, State.tellWords, State.tellWords_cop rest]
    simp

/-! ## Transfers with the coprocessors -/

/-- `t` is `s` after some data accesses and what the coprocessors were told, memory, the outputs and the free values aside. -/
structure CopAccesses (s t : State) : Prop where
  regs : t.regs = s.regs
  pc : t.pc = s.pc
  cpsr : t.cpsr = s.cpsr
  same : SameButAccesses s t

/-- The base has been written back, no other register has changed, and execution goes on. -/
structure BaseWritten (wb : Option (Reg × Word)) (s t : State) : Prop where
  reads : ∀ x ∈ wb, t.bankReg s.mode x.1 = x.2
  only : OnlyRegs s.mode (wb.toList.map Prod.fst) s t
  cpsr : t.cpsr = s.cpsr
  falls : FallsThrough s t
  same : SameButAccesses s t

section
variable {s t u : State}

theorem SameButAccesses.pins (h : SameButAccesses s t) : t.pins = s.pins := by
  obtain ⟨-, -, hpins, -⟩ := h
  exact hpins

theorem OnlyAccesses.copAccesses (h : OnlyAccesses s t) : CopAccesses s t := ⟨h.regs, h.pc, h.cpsr, h.sameButAccesses⟩

theorem CopAccesses.accepted (s : State) (i : Instr) (rest : List CpReply) : CopAccesses s (s.accepted i rest) :=
  ⟨rfl, rfl, rfl, (OnlyAccesses.refl s).sameButAccesses⟩

theorem CopAccesses.trans (h : CopAccesses s t) (h' : CopAccesses t u) : CopAccesses s u :=
  ⟨h'.regs.trans h.regs, h'.pc.trans h.pc, h'.cpsr.trans h.cpsr, h.same.trans h'.same⟩

theorem CopAccesses.tellWords (h : CopAccesses s t) (ws : List (Option Word)) : CopAccesses s (State.tellWords ws t) := by
  obtain ⟨cop, hws⟩ := State.tellWords_changes ws t
  rw [hws]
  exact ⟨h.regs, h.pc, h.cpsr, h.same⟩

theorem CopAccesses.mode (h : CopAccesses s t) : t.mode = s.mode := congrArg modeOf h.cpsr

theorem CopAccesses.width (h : CopAccesses s t) : t.width = s.width := width_of_cpsr (congrArg bitT h.cpsr)

/-- The memory system answers as before: it sees the mode and not the coprocessors. -/
theorem CopAccesses.dataRule (h : CopAccesses s t) (a : Word) (z : Size) (w u : Bool) :
    t.dataRule a z w u = s.dataRule a z w u := by
  obtain ⟨-, -, -, hsys, -⟩ := h.same
  simp [State.dataRule, State.dnTrans, State.dnMode, State.privileged, h.mode, hsys]

/-- Data Abort entry behind the accesses is entry from the state the instruction began in. -/
theorem CopAccesses.enters (h : CopAccesses s t) : Enters .dataAbort (s.pc + 8#32) s t.takeDataAbort := by
  have henters := t.takeDataAbort_enters
  rw [h.pc] at henters
  obtain ⟨hspsr, -⟩ := h.same
  exact henters.from h.regs h.cpsr hspsr h.same.pins

variable {wb : Option (Reg × Word)}

theorem baseWritten_self (s : State) (hwb : ∀ x ∈ wb, x.1 ≠ 15#4) : BaseWritten wb s (s.writeBack wb).advance where
  reads := State.writeBack_reads s wb hwb
  only := onlyRegs_of_regs (OnlyRegs.writeBack s wb) rfl
  cpsr := by simp
  falls := by simp [FallsThrough]
  same := by simp [SameButAccesses]

theorem BaseWritten.from (h : BaseWritten wb u t) (hu : CopAccesses s u) : BaseWritten wb s t where
  reads := hu.mode ▸ h.reads
  only := onlyRegs_from (hu.mode ▸ h.only) hu.regs
  cpsr := h.cpsr.trans hu.cpsr
  falls := by rw [FallsThrough, h.falls, hu.pc, hu.width]
  same := hu.same.trans h.same

theorem Stored.from {bs : List (Nat × Byte)} (h : Stored bs u t) (hm : u.mem = s.mem) : Stored bs s t := by
  simpa only [Stored, State.byteAt, hm] using h

theorem PartlyStored.from {start : Word} {vals : List Word} (h : PartlyStored start vals u t) (hu : CopAccesses s u)
    (hm : u.mem = s.mem) : PartlyStored start vals s t := by
  simpa only [PartlyStored, State.byteAt, hm, hu.same.pins, hu.dataRule] using h

end

/-! ## LDC -/

/-- The coprocessors have been told of the words at `start` that were read before the first aborted one (R484, R486). -/
def State.loadedWords (s : State) (start : Word) (n : Nat) : State :=
  State.tellWords ((readWords (blockAddrs start n) s).1.take (s.accessesLeft n)) (readWords (blockAddrs start n) s).2

section
variable {s : State} {start : Word} {n : Nat}

/-- With no reset on its way every access is made. -/
theorem State.accessesLeft_eq (h : s.sys.budget = none) (n : Nat) : s.accessesLeft n = n := by
  rw [State.accessesLeft, h]

theorem State.loadedWords_changes (h0 : Alone s) (hd : s.debugSpeed = false) (hb : s.sys.budget = none) (start : Word) (n : Nat) :
    CopAccesses s (s.loadedWords start n) ∧ (s.loadedWords start n).mem = s.mem := by
  obtain ⟨-, -, honly, hmem, -⟩ := readWords_spec (as := blockAddrs start n) h0 hd hb
  refine ⟨honly.copAccesses.tellWords _, ?_⟩
  obtain ⟨cop, hws⟩ := State.tellWords_changes ((readWords (blockAddrs start n) s).1.take (s.accessesLeft n))
    (readWords (blockAddrs start n) s).2
  rw [State.loadedWords, hws]
  exact hmem

/-- The coprocessors receive the words of memory, lowest address first (R484). -/
theorem State.loadedWords_cop (h : BlockReadable s start n) (hd : s.debugSpeed = false) (hb : s.sys.budget = none) :
    (s.loadedWords start n).cop = ⟨s.cop.replies, s.cop.log ++
      (List.range n).map fun k => .loaded (busWordAt s.pins.bigend s.mem (wordAddr start k))⟩ := by
  obtain ⟨-, -, honly, -⟩ := readWords_spec (as := blockAddrs start n) h.1 hd hb
  have htold : (readWords (blockAddrs start n) s).1.take (s.accessesLeft n) =
      ((blockAddrs start n).map fun x => busWordAt s.pins.bigend s.mem x).map some := by
    rw [State.accessesLeft_eq hb, (readWords_ok h hd hb).2, List.take_of_length_le (by simp [blockAddrs]), List.map_map]
    rfl
  rw [State.loadedWords, htold, State.tellWords_cop, honly.cop, blockAddrs, List.map_map, List.map_map]
  rfl

end

section
variable {s : State} {c : Cond} {m : CopMem} {n : Nat} {data : List Word} {rest : List CpReply}

/-- An accepted LDC whose words are all answered. -/
theorem exec_ldc_answered {ws : List Word} (ha : Accepts s n data rest) (h : Runs (.ldc c m) s) (hcp : m.cp ≠ 14#4)
    (hws : allWords (readWords (blockAddrs (CopMem.address s m) (n + 1)) (s.accepted (.ldc c m) rest)).1 = some ws) :
    exec (.ldc c m) s = .next (((s.accepted (.ldc c m) rest).loadedWords (CopMem.address s m) (n + 1)).writeBack
      (CopMem.writeBack s m)).advance := by
  rw [run_ldc h, ldcOp, if_neg hcp, handshake_accepted ha]
  simp only [show CopMem.address (s.executed true) m = CopMem.address s m from rfl, hws]
  rfl

/-- An accepted LDC that had no answer to one of its words. -/
theorem exec_ldc_unanswered (ha : Accepts s n data rest) (h : Runs (.ldc c m) s) (hcp : m.cp ≠ 14#4)
    (hnone : allWords (readWords (blockAddrs (CopMem.address s m) (n + 1)) (s.accepted (.ldc c m) rest)).1 = none) :
    exec (.ldc c m) s = .next ((s.accepted (.ldc c m) rest).loadedWords (CopMem.address s m) (n + 1)).takeDataAbort := by
  rw [run_ldc h, ldcOp, if_neg hcp, handshake_accepted ha]
  simp only [show CopMem.address (s.executed true) m = CopMem.address s m from rfl, hnone]
  rfl

theorem CopMem.writeBack_ne_pc (hw : m.w = true → m.rn ≠ 15#4) : ∀ x ∈ CopMem.writeBack s m, x.1 ≠ 15#4 := by
  intro x hx
  unfold CopMem.writeBack at hx
  split at hx
  · next hset =>
    obtain rfl := Option.some.inj hx
    exact hw hset
  · cases hx

/-- LDC from readable words. -/
theorem ldc_done (ha : Accepts s n data rest) (h : Runs (.ldc c m) s) (hcp : m.cp ≠ 14#4)
    (hread : BlockReadable s (CopMem.address s m) (n + 1)) :
    ∃ t, exec (.ldc c m) s = .next t ∧
      t.cop = ⟨rest, s.cop.log ++ [.instr (.ldc c m) s.privileged] ++
        (List.range (n + 1)).map fun k => .loaded (busWordAt s.pins.bigend s.mem (wordAddr (CopMem.address s m) k))⟩ ∧
      BaseWritten (CopMem.writeBack s m) s t ∧ t.mem = s.mem := by
  obtain ⟨hd, hb, -⟩ := hread.2 0 (Nat.succ_pos n)
  obtain ⟨hchanges, hmem⟩ := State.loadedWords_changes (s := s.accepted (.ldc c m) rest) hread.1 hd hb (CopMem.address s m) (n + 1)
  have hcop := State.loadedWords_cop (s := s.accepted (.ldc c m) rest) hread hd hb
  have hx := exec_ldc_answered ha h hcp (readWords_ok (s := s.accepted (.ldc c m) rest) hread hd hb).1
  refine ⟨_, hx, ?_, (baseWritten_self _ (CopMem.writeBack_ne_pc (base_ne_pc_of_writeBack h.checks))).from
    ((CopAccesses.accepted s (.ldc c m) rest).trans hchanges), ?_⟩
  · rw [State.advance_cop, State.writeBack_cop, hcop]
    rfl
  · rw [State.advance_mem, State.writeBack_mem, hmem]
    rfl

/-- LDC one of whose words is aborted (R486). -/
theorem ldc_aborted (ha : Accepts s n data rest) (h : Runs (.ldc c m) s) (hcp : m.cp ≠ 14#4)
    (hab : BlockAborts s (CopMem.address s m) (n + 1) false) :
    ∃ t, exec (.ldc c m) s = .next t ∧ Enters .dataAbort (s.pc + 8#32) s t ∧ t.mem = s.mem := by
  have hx := exec_ldc_unanswered ha h hcp (readWords_aborts (s := s.accepted (.ldc c m) rest) hab)
  obtain ⟨halone, hd, hb, -⟩ := hab
  obtain ⟨hchanges, hmem⟩ := State.loadedWords_changes (s := s.accepted (.ldc c m) rest) halone hd hb (CopMem.address s m) (n + 1)
  refine ⟨_, hx, ((CopAccesses.accepted s (.ldc c m) rest).trans hchanges).enters, ?_⟩
  rw [State.takeDataAbort_mem, hmem]
  rfl

end

/-! ## STC -/

/-- Free values are drawn for the words of an STC, of which those are used that no coprocessor drives (R485). -/
def State.drawnWords (s : State) (n : Nat) : State := { s with draws := s.draws + n }

section
variable {s : State} {start : Word} {n : Nat}

theorem OnlyAccesses.drawnWords (s : State) (n : Nat) : OnlyAccesses s (s.drawnWords n) := by constructor <;> rfl

theorem BlockWritable.drawnWords (h : BlockWritable s start n) (k : Nat) : BlockWritable (s.drawnWords k) start n := h

theorem BlockAborts.drawnWords {write : Bool} (h : BlockAborts s start n write) (k : Nat) :
    BlockAborts (s.drawnWords k) start n write := h

theorem State.drawnWords_mem (s : State) (n : Nat) : (s.drawnWords n).mem = s.mem := rfl

end

section
variable {s : State} {c : Cond} {m : CopMem} {n : Nat} {data : List Word} {rest : List CpReply}

/-- The state whose memory an accepted STC writes. -/
def State.supplied (s : State) (i : Instr) (rest : List CpReply) (n : Nat) : State := (s.accepted i rest).drawnWords n

theorem CopAccesses.supplied (s : State) (i : Instr) (rest : List CpReply) (n : Nat) : CopAccesses s (s.supplied i rest n) :=
  (CopAccesses.accepted s i rest).trans (OnlyAccesses.drawnWords ..).copAccesses

theorem State.supplied_mem (s : State) (i : Instr) (rest : List CpReply) (n : Nat) : (s.supplied i rest n).mem = s.mem :=
  State.drawnWords_mem ..

theorem State.supplied_cop (s : State) (i : Instr) (rest : List CpReply) (n : Nat) :
    (s.supplied i rest n).cop = ⟨rest, s.cop.log ++ [.instr i s.privileged]⟩ := (OnlyAccesses.drawnWords ..).cop

/-- An accepted STC is the block store of its words. -/
theorem exec_stc_accepted (ha : Accepts s n data rest) (h : Runs (.stc c m) s) (hcp : m.cp ≠ 14#4) :
    exec (.stc c m) s = blockStore (CopMem.address s m) (stcWords s.draws (n + 1) data) m.rn
      (if m.w then some (CopMem.target s m) else none) (s.supplied (.stc c m) rest (n + 1)) := by
  rw [run_stc h, stcOp, if_neg hcp, handshake_accepted ha, blockStore, stcWords_length, Option.map_if]
  rfl

/-- STC to writable words. -/
theorem stc_done (ha : Accepts s n data rest) (h : Runs (.stc c m) s) (hcp : m.cp ≠ 14#4)
    (hw : BlockWritable s (CopMem.address s m) (n + 1)) (hlen : data.length = n + 1) (hn : n < 2 ^ 30) :
    ∃ t, exec (.stc c m) s = .next t ∧ Stored (blockBytes s.pins.bigend (CopMem.address s m) data) s t ∧
      t.cop = ⟨rest, s.cop.log ++ [.instr (.stc c m) s.privileged]⟩ ∧ BaseWritten (CopMem.writeBack s m) s t := by
  have hu := CopAccesses.supplied s (.stc c m) rest (n + 1)
  have hwu : BlockWritable (s.supplied (.stc c m) rest (n + 1)) (CopMem.address s m) data.length :=
    hlen ▸ BlockWritable.drawnWords (s := s.accepted (.stc c m) rest) hw (n + 1)
  obtain ⟨hd, hb, -⟩ := hwu.2 0 (by omega)
  obtain ⟨t, hx, hstored, hreads, honly, hcpsr, hfalls, hcop, hsame⟩ := blockStore_done (rn := m.rn)
    (wb := if m.w then some (CopMem.target s m) else none) hwu hd hb (by omega)
    (fun hwb => base_ne_pc_of_writeBack h.checks (by simpa using hwb))
  rw [Option.map_if] at hreads honly
  rw [hu.same.pins] at hstored
  exact ⟨t, by rw [exec_stc_accepted ha h hcp, stcWords_eq _ hlen, hx], hstored.from (State.supplied_mem ..), hcop.trans (State.supplied_cop ..),
    (BaseWritten.mk hreads honly hcpsr hfalls hsame).from hu⟩

/-- STC one of whose words is aborted (R486, 60_exceptions.md R685). -/
theorem stc_aborted (ha : Accepts s n data rest) (h : Runs (.stc c m) s) (hcp : m.cp ≠ 14#4)
    (hab : BlockAborts s (CopMem.address s m) (n + 1) true) :
    ∃ t, exec (.stc c m) s = .next t ∧ Enters .dataAbort (s.pc + 8#32) s t ∧
      (data.length = n + 1 → n < 2 ^ 30 → PartlyStored (CopMem.address s m) data s t) := by
  have hu := CopAccesses.supplied s (.stc c m) rest (n + 1)
  have habu : BlockAborts (s.supplied (.stc c m) rest (n + 1)) (CopMem.address s m) (n + 1) true :=
    BlockAborts.drawnWords (s := s.accepted (.stc c m) rest) hab (n + 1)
  obtain ⟨t, ht, honly⟩ := writeWords_aborts (vals := stcWords s.draws (n + 1) data) (by rwa [stcWords_length])
  obtain ⟨halone, hd, hb, -⟩ := habu
  refine ⟨t.takeDataAbort, by rw [exec_stc_accepted ha h hcp, blockStore, ht], (hu.trans honly.copAccesses).enters, fun hlen hn => ?_⟩
  have hpart := writeWords_partly (start := CopMem.address s m) (vals := data) halone hd hb (by omega)
  rw [stcWords_eq _ hlen] at ht
  rw [ht] at hpart
  simpa only [PartlyStored, State.byteAt, State.takeDataAbort_mem] using hpart.from hu (State.supplied_mem ..)

end

/-- Settles O52: `CopMem.target_toNat` for the address, and the completed and the aborted transfer of either direction. -/
theorem coprocessorTransfers : Obligations.CoprocessorTransfers := by
  unfold Obligations.CoprocessorTransfers
  intro s c m go data rest ha hcp start wb base
  refine ⟨⟨CopMem.target_toNat s m, rfl⟩, fun h hread => ?ldc, fun h hw hlen hgo => ?stc, fun h => ldc_aborted ha h hcp,
    fun h => stc_aborted ha h hcp⟩
  case ldc =>
    obtain ⟨t, hx, hcop, hback, hmem⟩ := ldc_done ha h hcp hread
    exact ⟨t, hx, hcop, hback.reads, hback.only, hback.cpsr, hback.falls, fun x => congrArg (Memory.read · x) hmem, hback.same⟩
  case stc =>
    obtain ⟨t, hx, hstored, hcop, hback⟩ := stc_done ha h hcp hw hlen hgo
    exact ⟨t, hx, hstored, hcop, hback.reads, hback.only, hback.cpsr, hback.falls, hback.same⟩

end Sys2Proof.Machine
end

section
/-!
PROOFS. 47_thumb_data.md: the Thumb data processing of formats 1 to 5, 12 and 13. No row but those of the high registers has a field that
can be UNPREDICTABLE, so the others run in every state.
-/

namespace Sys2Proof.Machine

/-! ## Shifts -/

section
variable {i : Instr} {s : State} {rd : LowReg}

/-- A Thumb shift is a move of the shifted value, with the carry of the shifter (R524 to R526, R542 to R547). -/
theorem thumbShift_done {x : Shifted} (h : exec i s = thumbShift rd x (s.executed true)) :
    DataDone i s .mov true (lowReg rd) 0#32 x.val x.carry := thumbAlu_done rfl h

/-- The amount of a shift by a register is its low byte. -/
theorem thumbShiftByReg_done {ty : ShiftType} {a b : Word} {c : Bool}
    (h : exec i s = thumbShift rd (shiftByReg ty a (b.extractLsb' 0 8).toNat c) (s.executed true)) :
    DataDone i s .mov true (lowReg rd) 0#32 (shiftByReg ty a (b.toNat % 256) c).val (shiftByReg ty a (b.toNat % 256) c).carry := by
  rw [BitVec.extractLsb'_toNat, Nat.shiftRight_zero] at h
  exact thumbShift_done h

end

/-- Settles O45: the body of each row is `thumbShift`, or `thumbAlu` or `thumbFlags` of its operation. -/
theorem thumbShiftAddMove : Obligations.ThumbShiftAddMove := by
  unfold Obligations.ThumbShiftAddMove
  intro s rs rd
  refine ⟨?shifts, fun rn => ⟨?_, ?_⟩, fun n => ⟨?_, ?_⟩, fun n => ⟨?_, ?_, ?_, ?_⟩⟩
  case shifts =>
    rintro n ty i (⟨rfl, rfl⟩ | ⟨rfl, rfl⟩ | ⟨rfl, rfl⟩)
    · exact thumbShift_done (run_tLslImm (runs_thumb rfl rfl))
    · exact thumbShift_done (run_tLsrImm (runs_thumb rfl rfl))
    · exact thumbShift_done (run_tAsrImm (runs_thumb rfl rfl))
  · exact thumbAlu_done rfl (run_tAddReg (runs_thumb rfl rfl))
  · exact thumbAlu_done rfl (run_tSubReg (runs_thumb rfl rfl))
  · exact thumbAlu_done rfl (run_tAddImm3 (runs_thumb rfl rfl))
  · exact thumbAlu_done rfl (run_tSubImm3 (runs_thumb rfl rfl))
  · exact thumbAlu_done rfl (run_tMovImm (runs_thumb rfl rfl))
  · exact thumbFlags_done rfl (run_tCmpImm (runs_thumb rfl rfl))
  · exact thumbAlu_done rfl (run_tAddImm (runs_thumb rfl rfl))
  · exact thumbAlu_done rfl (run_tSubImm (runs_thumb rfl rfl))

/-- Settles O46: as O45. -/
theorem ThumbFormat4.thumbAlu : Obligations.ThumbAlu := by
  unfold Obligations.ThumbAlu
  intro s rs rd a b c done shifted
  refine ⟨?_, ?_, ?_, ?_, ?_, ?_, ?_, ?_, ?_, ?_, ?_, ?_, ?_, ?_, ?_⟩
  · exact thumbAlu_done rfl (run_tAnd (runs_thumb rfl rfl))
  · exact thumbAlu_done rfl (run_tEor (runs_thumb rfl rfl))
  · exact thumbShiftByReg_done (run_tLsl (runs_thumb rfl rfl))
  · exact thumbShiftByReg_done (run_tLsr (runs_thumb rfl rfl))
  · exact thumbShiftByReg_done (run_tAsr (runs_thumb rfl rfl))
  · exact thumbAlu_done rfl (run_tAdc (runs_thumb rfl rfl))
  · exact thumbAlu_done rfl (run_tSbc (runs_thumb rfl rfl))
  · exact thumbShiftByReg_done (run_tRor (runs_thumb rfl rfl))
  · exact thumbFlags_done rfl (run_tTst (runs_thumb rfl rfl))
  · exact thumbAlu_done rfl (run_tNeg (runs_thumb rfl rfl))
  · exact thumbFlags_done rfl (run_tCmp (runs_thumb rfl rfl))
  · exact thumbFlags_done rfl (run_tCmn (runs_thumb rfl rfl))
  · exact thumbAlu_done rfl (run_tOrr (runs_thumb rfl rfl))
  · exact thumbAlu_done rfl (run_tBic (runs_thumb rfl rfl))
  · exact thumbAlu_done rfl (run_tMvn (runs_thumb rfl rfl))

/-! ## High registers, PC and SP -/

/-- An unsigned field scaled by the zeros appended to it, as the words of the rules have it. -/
theorem setWidth_append_zero {n k m : Nat} (hm : m = 2 ^ k) (off : BitVec n) :
    (off ++ 0#k).setWidth 32 = BitVec.ofNat 32 (m * off.toNat) := by
  apply BitVec.eq_of_toNat_eq
  rw [BitVec.toNat_setWidth, BitVec.toNat_append, BitVec.toNat_ofNat, Nat.shiftLeft_eq, hm, Nat.mul_comm, BitVec.toNat_ofNat,
    Nat.zero_mod, Nat.or_zero]

section
variable {i : Instr} {s : State} {rd : Reg} {a b : Word}

/-- A sum, a difference or a move that writes no flag is the operation without S (R560, R562, R570 to R573). -/
theorem thumbWrite_add_done (hrd : rd ≠ 15#4) (h : exec i s = thumbWrite rd (a + b) (s.executed true)) :
    DataDone i s .add false rd a b false :=
  thumbWrite_done hrd rfl (by rw [h]; simp [alu, addition, addc])

theorem thumbWrite_sub_done (hrd : rd ≠ 15#4) (h : exec i s = thumbWrite rd (a - b) (s.executed true)) :
    DataDone i s .sub false rd a b false :=
  thumbWrite_done hrd rfl (by rw [h]; simp [alu, subtraction, subb])

theorem State.pcOperand_thumb (ht : bitT s.cpsr = true) : s.pcOperand = s.pc + 4#32 := by simp [State.pcOperand, ht]

end

/-- Settles O47: each row is `thumbWrite` of its result, a jump where the destination is R15, or `thumbFlags`. -/
theorem thumbHighAndSp : Obligations.ThumbHighAndSp := by
  unfold Obligations.ThumbHighAndSp
  intro s
  refine ⟨fun h1 h2 rs rd => ?high, fun rd n => ⟨fun ht => ?_, ?_⟩, fun n => ⟨?_, ?_⟩⟩
  case high =>
    intro d a b
    refine ⟨fun h hd => thumbWrite_add_done hd (run_tAddHi h), fun h hd => thumbWrite_done hd rfl (run_tMovHi h),
      fun h => thumbFlags_done rfl (run_tCmpHi h), fun h hd => thumbWrite_jump ?_, fun h hd => thumbWrite_jump ?_⟩
    · exact (run_tAddHi h).trans (congrArg (thumbWrite · _ _) hd)
    · exact (run_tMovHi h).trans (congrArg (thumbWrite · _ _) hd)
  · rw [← State.pcOperand_thumb ht, ← setWidth_append_zero (m := 4) (k := 2) rfl]
    exact thumbWrite_add_done (lowReg_ne rd) (run_tAddPc (runs_thumb rfl rfl))
  · rw [← setWidth_append_zero (m := 4) (k := 2) rfl]
    exact thumbWrite_add_done (lowReg_ne rd) (run_tAddSp (runs_thumb rfl rfl))
  · rw [← setWidth_append_zero (m := 4) (k := 2) rfl]
    exact thumbWrite_add_done (by decide) (run_tIncSp (runs_thumb rfl rfl))
  · rw [← setWidth_append_zero (m := 4) (k := 2) rfl]
    exact thumbWrite_sub_done (by decide) (run_tDecSp (runs_thumb rfl rfl))

end Sys2Proof.Machine
end

section
/-!
PROOFS. 48_thumb_memory_branch.md: the Thumb branches and both halves of BL (R634, R638, R640, R641), and the loads and stores of formats 6
to 11 (R591 to R610). A word access is `thumbLoadWord` or `thumbStoreWord`, whose two cases are those of the alignment of the address.
-/

namespace Sys2Proof.Machine

/-! ## Branches -/

section
variable {s : State}

theorem State.width_thumb (ht : bitT s.cpsr = true) : s.width = 2#32 := by simp [State.width, ht]

/-- Where the Thumb branches go: an offset scaled by the zeros appended to it, from the address + 4. -/
theorem branchTarget_thumb (ht : bitT s.cpsr = true) {n k : Nat} {m : Int} (hm : m = 2 ^ k) (off : BitVec n) :
    s.pcOperand + (off ++ 0#k).signExtend 32 = s.pc + 4#32 + BitVec.ofInt 32 (m * off.toInt) := by
  rw [State.pcOperand_thumb ht, signExtend_append_zero, hm]

/-- An instruction that only goes on to the next one, as a jump. -/
theorem jumpDone_advance {i : Instr} {b : Bool} (h : exec i s = .next (s.executed b).advance) :
    JumpDone i s (s.pc + s.width) s.cpsr [] :=
  ⟨_, h, by simp, by simp, by simp, OnlyRegs.of_eq rfl, sameOutside_executed_advance s b⟩

/-- One that leaves a value in a register and goes on to the next. -/
theorem jumpDone_setReg_advance {i : Instr} {r : Reg} {v : Word} (hr : r ≠ 15#4)
    (h : exec i s = .next ((s.executed true).setReg r v).advance) : JumpDone i s (s.pc + s.width) s.cpsr [(r, v)] := by
  refine ⟨_, h, by simp, by simp, ?_, onlyRegs_of_regs (onlyRegs_setReg_executed s r v) rfl, sameOutside_setReg_advance s r v⟩
  intro x hx
  obtain rfl := List.mem_singleton.mp hx
  exact bankReg_setReg_executed s r v hr

end

/-- Settles O37: B and a taken conditional branch are jumps, the first half of BL leaves R14 and goes on, and the second half is a jump
that leaves a link. -/
theorem thumbBranches : Obligations.ThumbBranches := by
  unfold Obligations.ThumbBranches
  intro s ht
  refine ⟨fun off => ?b, fun c off => ?cond, fun off => ?first, fun off => ?second⟩
  case b =>
    rw [← branchTarget_thumb ht (m := 2) (k := 1) rfl]
    exact jumpDone_branchTo (run_tB (runs_thumb rfl rfl))
  case cond =>
    have h := run_tBCond (c := c) (n := off) (st := s) (runs_thumb rfl rfl)
    cases hp : conditionPassed c s.cpsr with
    | true =>
      rw [if_pos rfl, ← branchTarget_thumb ht (m := 2) (k := 1) rfl]
      exact jumpDone_branchTo (h.trans (if_pos hp))
    | false =>
      rw [if_neg Bool.false_ne_true, ← State.width_thumb ht]
      exact jumpDone_advance (b := false) (h.trans (if_neg (by simp [hp])))
  case first =>
    rw [← branchTarget_thumb ht (m := 4096) (k := 12) rfl, ← State.width_thumb ht]
    exact jumpDone_setReg_advance (by decide) (run_tBl1 (runs_thumb rfl rfl))
  case second =>
    rw [← setWidth_append_zero (m := 2) (k := 1) rfl]
    exact jumpDone_linked (by decide) (run_tBl2 (runs_thumb rfl rfl))

/-! ## Loads and stores -/

section
variable {i : Instr} {s : State} {a : Word} {rd : LowReg}

/-- A word load, from an aligned address and from another. -/
theorem thumbLoadWord_loads (h : Runs i s → exec i s = thumbLoadWord a rd (s.executed true)) :
    (a.extractLsb' 0 2 = 0#2 → LoadTo i s .word a false none (lowReg rd)) ∧
      (a.extractLsb' 0 2 ≠ 0#2 → LoadOpen i s a (lowReg rd)) :=
  ⟨fun ha => loadTo_of (fun hr => (h hr).trans (thumbLoadWord_aligned ha rd _)) (by simp), loadOpen_of h⟩

/-- A word store, to an aligned address and to another. -/
theorem thumbStoreWord_stores (h : Runs i s → exec i s = thumbStoreWord a rd (s.executed true)) :
    (a.extractLsb' 0 2 = 0#2 → StoreTo i s .word a (s.reg (lowReg rd)) false none) ∧
      (a.extractLsb' 0 2 ≠ 0#2 → StoreOpen i s a (s.reg (lowReg rd))) :=
  ⟨fun ha => storeTo_of (fun hr => (h hr).trans (thumbStoreWord_aligned ha rd _)) (by simp), storeOpen_of h⟩

/-- A load or store with no base to write back. -/
theorem loadTo_noWriteBack {k : LoadKind} {r : Reg} (h : Runs i s → exec i s = loadOp k a false none r (s.executed true)) :
    LoadTo i s k a false none r := loadTo_of h (by simp)

theorem storeTo_noWriteBack {size : Size} {v : Word} (h : Runs i s → exec i s = storeOp size a v false none (s.executed true)) :
    StoreTo i s size a v false none := storeTo_of h (by simp)

end

/-- Settles O48: the body of a word load is `thumbLoadWord`, that of a smaller one `loadOp`. -/
theorem thumbLoads : Obligations.ThumbLoads := by
  unfold Obligations.ThumbLoads
  intro s word sub
  refine ⟨fun rd n => ⟨?_, ?_⟩, fun ro rb rd => ⟨?_, ?_, ?_, ?_, ?_⟩, fun n rb rd => ⟨?_, ?_, ?_⟩⟩
  · exact thumbLoadWord_loads run_tLdrPc
  · exact thumbLoadWord_loads run_tLdrSp
  · exact thumbLoadWord_loads run_tLdrReg
  · exact loadTo_noWriteBack run_tLdrhReg
  · exact loadTo_noWriteBack run_tLdrbReg
  · exact loadTo_noWriteBack run_tLdshReg
  · exact loadTo_noWriteBack run_tLdsbReg
  · exact thumbLoadWord_loads run_tLdrImm
  · exact loadTo_noWriteBack run_tLdrhImm
  · exact loadTo_noWriteBack run_tLdrbImm

/-- Settles O49: as O48, with `thumbStoreWord` and `storeOp`. -/
theorem thumbStores : Obligations.ThumbStores := by
  unfold Obligations.ThumbStores
  intro s word sub
  refine ⟨fun rd n => ?_, fun ro rb rd => ⟨?_, ?_, ?_⟩, fun n rb rd => ⟨?_, ?_, ?_⟩⟩
  · exact thumbStoreWord_stores run_tStrSp
  · exact thumbStoreWord_stores run_tStrReg
  · exact storeTo_noWriteBack run_tStrhReg
  · exact storeTo_noWriteBack run_tStrbReg
  · exact thumbStoreWord_stores run_tStrImm
  · exact storeTo_noWriteBack run_tStrhImm
  · exact storeTo_noWriteBack run_tStrbImm

end Sys2Proof.Machine
end

section
/-!
PROOFS. 43_arm_load_store.md, 44_arm_load_store_multiple_swap.md, 60_exceptions.md R670: who writes memory. Outside the rows of `mayStore`
no shared body writes it: reads, register writes, branches, exception entry and the coprocessors' handshake keep both memories, and with no
other master about (20_memory.md R142) the gaps between the accesses of a block do so too.
-/

namespace Sys2Proof.Machine

/-! ## States with the memory of another -/

/-- `t` has the memory of `s`, and no other bus master is about. -/
structure MemoryKept (s t : State) : Prop where
  mem : t.mem = s.mem
  imem : t.imem = s.imem
  alone : Alone t

section
variable {s t : State}

theorem MemoryKept.start (h : Alone s) : MemoryKept s s := ⟨rfl, rfl, h⟩

/-- A state that agrees with `t` in memory and in the memory system around the core. -/
theorem MemoryKept.of_eq {u : State} (h : MemoryKept s t) (hm : u.mem = t.mem := by simp) (hi : u.imem = t.imem := by simp)
    (hs : u.sys = t.sys := by simp) : MemoryKept s u :=
  ⟨hm.trans h.mem, hi.trans h.imem, (congrArg MemSystem.others hs).trans h.alone⟩

theorem MemoryKept.spend (h : MemoryKept s t) : MemoryKept s t.spend := ⟨h.mem, h.imem, h.alone⟩

theorem MemoryKept.between {α : Type} (h : MemoryKept s t) (rest : List α) : MemoryKept s (t.between rest) := by
  rw [State.between_alone h.alone]
  exact h

theorem MemoryKept.readData (h : MemoryKept s t) (a : Word) (size : Size) (user : Bool) (b : Beat) :
    MemoryKept s (t.readData a size user b).2 := by
  unfold State.readData
  split
  · exact h.of_eq
  split
  · exact h.of_eq
  · unfold State.ddin
    dsimp only
    split
    · exact (MemoryKept.spend (t := t.drawn) h.of_eq).of_eq
    · exact h.spend.of_eq

theorem MemoryKept.readRun : ∀ {as : List Word} {t : State} {seq : Bool}, MemoryKept s t → MemoryKept s (readRun seq as t).2
  | [], _, _, h => h
  | a :: rest, t, seq, h => by
    have hread := h.readData a .word false ⟨false, seq, !rest.isEmpty⟩
    unfold Machine.readRun
    dsimp only
    split
    · exact hread
    · exact MemoryKept.readRun (hread.between rest)

theorem MemoryKept.loadRegs {m : BitVec 5} : ∀ {xs : List (Reg × Word)} {t : State}, MemoryKept s t → MemoryKept s (loadRegs m xs t)
  | [], _, h => h
  | _ :: rest, _, h => MemoryKept.loadRegs (xs := rest) h.of_eq

theorem MemoryKept.freeRegs {m : BitVec 5} {base : Fin 30} : ∀ {rl : List Reg} {t : State}, MemoryKept s t →
    MemoryKept s (freeRegs m base rl t)
  | [], _, h => h
  | _ :: rest, t, h => by
    unfold Machine.freeRegs
    split
    · exact MemoryKept.freeRegs h
    · exact MemoryKept.freeRegs h.of_eq

theorem MemoryKept.tellWords : ∀ {ws : List (Option Word)} {t : State}, MemoryKept s t → MemoryKept s (State.tellWords ws t)
  | some _ :: rest, _, h => MemoryKept.tellWords (ws := rest) h.of_eq
  | none :: _, _, h => h
  | [], _, h => h

theorem MemoryKept.writeBack (h : MemoryKept s t) (wb : Option (Reg × Word)) : MemoryKept s (t.writeBack wb) := h.of_eq

theorem MemoryKept.advance (h : MemoryKept s t) : MemoryKept s t.advance := h.of_eq

theorem MemoryKept.takeDataAbort (h : MemoryKept s t) : MemoryKept s t.takeDataAbort := h.of_eq

theorem MemoryKept.raise (h : MemoryKept s t) (e : Exc) (link : Word) : MemoryKept s (t.raise e link) := h.of_eq

end

/-! ## Bodies that keep memory -/

/-- Every next state that the result can be has the memory of `s`. -/
structure KeepsMemory (s : State) (r : Result) : Prop where
  kept : ∀ t, r = .next t → MemoryKept s t

section
variable {s t : State}

theorem KeepsMemory.next (h : MemoryKept s t) : KeepsMemory s (.next t) := ⟨fun _ ht => Host.Outcome.next.inj ht ▸ h⟩

theorem KeepsMemory.refused (r : Refusal) : KeepsMemory s (.refused r) := ⟨fun _ ht => nomatch ht⟩

theorem KeepsMemory.armGuard {c : Cond} {i : Instr} {body : State → Result} (h : MemoryKept s t)
    (hb : KeepsMemory s (body (t.executed true))) : KeepsMemory s (armGuard c i t body) := by
  refine ⟨fun u hu => ?_⟩
  rcases armGuard_next hu with rfl | hbody
  · exact h.of_eq
  · exact hb.kept u hbody

theorem KeepsMemory.thumbGuard {i : Instr} {body : State → Result} (hb : KeepsMemory s (body (t.executed true))) :
    KeepsMemory s (thumbGuard i t body) := ⟨fun u hu => hb.kept u (thumbGuard_next hu)⟩

/-! ### Registers and status registers -/

theorem exceptionReturn_keepsMemory (h : MemoryKept s t) (v : Word) : KeepsMemory s (t.exceptionReturn v) := by
  unfold State.exceptionReturn
  split
  · exact .refused _
  · split
    · exact .next h.of_eq
    · exact .refused _

theorem dataOp_keepsMemory (h : MemoryKept s t) (op : DpOp) (f : Bool) (rd : Reg) (a : Word) (b : Shifted) :
    KeepsMemory s (dataOp op f rd a b t) := by
  unfold dataOp
  dsimp only
  split
  · split
    · exact exceptionReturn_keepsMemory h _
    · split
      · exact .next h.of_eq
      · exact .refused _
  · split
    · exact .next h.of_eq
    · exact .next h.of_eq

theorem mulOp_keepsMemory (h : MemoryKept s t) (f : Bool) (rd : Reg) (r : Word) : KeepsMemory s (mulOp f rd r t) := by
  unfold mulOp
  split
  · exact .next h.of_eq
  · exact .next h.of_eq

theorem mulLongOp_keepsMemory (h : MemoryKept s t) (f : Bool) (hi lo : Reg) (p : BitVec 64) :
    KeepsMemory s (mulLongOp f hi lo p t) := by
  unfold mulLongOp
  dsimp only
  split
  · exact .next h.of_eq
  · exact .next h.of_eq

theorem thumbWrite_keepsMemory (h : MemoryKept s t) (rd : Reg) (v : Word) : KeepsMemory s (thumbWrite rd v t) := by
  unfold thumbWrite
  split
  · exact .next h.of_eq
  · exact .next h.of_eq

theorem readStatus_keepsMemory (h : MemoryKept s t) (r : Bool) (rd : Reg) : KeepsMemory s (readStatus r rd t) := by
  unfold readStatus
  split
  · split
    · exact .next h.of_eq
    · exact .refused _
  · exact .next h.of_eq

theorem writeStatus_keepsMemory (h : MemoryKept s t) (r : Bool) (fields : BitVec 4) (v : Word) :
    KeepsMemory s (writeStatus r fields v t) := by
  unfold writeStatus
  dsimp only
  split
  · split
    · exact .refused _
    · exact .next h.of_eq
  split
  · exact .refused _
  split
  · split
    · exact .next h.of_eq
    · exact .refused _
  · exact .next h.of_eq

/-! ### Loads -/

theorem loadOp_keepsMemory (h : MemoryKept s t) (k : LoadKind) (a : Word) (user : Bool) (wb : Option (Reg × Word)) (rd : Reg) :
    KeepsMemory s (loadOp k a user wb rd t) := by
  have hr := h.readData a k.size user .single
  unfold loadOp
  split
  · exact .refused _
  split
  · exact .refused _
  generalize t.readData a k.size user .single = x at hr ⊢
  rcases x with ⟨_ | w, u⟩
  · exact .next hr.takeDataAbort
  · dsimp only
    split
    · exact .next hr.of_eq
    · exact .next hr.of_eq

theorem thumbLoadWord_keepsMemory (h : MemoryKept s t) (a : Word) (rd : LowReg) : KeepsMemory s (thumbLoadWord a rd t) := by
  have hr := h.readData a .word false .single
  unfold thumbLoadWord
  split
  · exact .refused _
  generalize t.readData a .word false .single = x at hr ⊢
  rcases x with ⟨_ | w, u⟩
  · exact .next hr.takeDataAbort
  · dsimp only
    split
    · exact .next hr.of_eq
    · exact .next hr.of_eq

/-- A block load whose last part keeps memory. -/
theorem blockLoad_keepsMemory (h : MemoryKept s t) (m : BitVec 5) (rl : List Reg) (start : Word) (rn : Reg) (wb : Option Word)
    {fin : Word → State → Result} (hfin : ∀ w u, MemoryKept s u → KeepsMemory s (fin w u)) :
    KeepsMemory s (blockLoad m rl start rn wb t fin) := by
  have hx : MemoryKept s (readWords (blockAddrs start rl.length) t).2 := MemoryKept.readRun h
  unfold blockLoad
  dsimp only
  split
  · exact .next (MemoryKept.freeRegs hx).takeDataAbort
  · exact hfin _ _ ((MemoryKept.loadRegs hx).writeBack _)

theorem ldmPlain_keepsMemory (h : MemoryKept s t) (p u w : Bool) (rn : Reg) (list : BitVec 16) :
    KeepsMemory s (ldmPlain p u w rn list t) := by
  unfold ldmPlain
  dsimp only
  refine blockLoad_keepsMemory h _ _ _ _ _ fun v x hx => ?_
  split
  · exact .next hx.of_eq
  · exact .next hx.of_eq

theorem ldmReturn_keepsMemory (h : MemoryKept s t) (p u w : Bool) (rn : Reg) (list : BitVec 15) :
    KeepsMemory s (ldmReturn p u w rn list t) := by
  unfold ldmReturn
  dsimp only
  split
  · exact .refused _
  · exact blockLoad_keepsMemory h _ _ _ _ _ fun v x hx => exceptionReturn_keepsMemory hx v

theorem ldmUser_keepsMemory (h : MemoryKept s t) (p u : Bool) (rn : Reg) (list : BitVec 15) :
    KeepsMemory s (ldmUser p u rn list t) := by
  unfold ldmUser
  dsimp only
  split
  · exact blockLoad_keepsMemory h _ _ _ _ _ fun v x hx => .next hx.of_eq
  · exact .refused _

theorem popOp_keepsMemory (h : MemoryKept s t) (pc : Bool) (list : BitVec 8) : KeepsMemory s (popOp pc list t) := by
  unfold popOp
  dsimp only
  refine blockLoad_keepsMemory h _ _ _ _ _ fun v x hx => ?_
  split
  · exact .next hx.of_eq
  · exact .next hx.of_eq

theorem ldmiaOp_keepsMemory (h : MemoryKept s t) (rb : LowReg) (list : BitVec 8) : KeepsMemory s (ldmiaOp rb list t) := by
  unfold ldmiaOp
  exact blockLoad_keepsMemory h _ _ _ _ _ fun _ _ hx => .next hx.of_eq

/-! ### Branches -/

theorem exchangeOp_keepsMemory (h : MemoryKept s t) (v : Word) : KeepsMemory s (exchangeOp v t) := by
  unfold exchangeOp
  split
  · exact .refused _
  · exact .next h.of_eq

theorem thumbCondBranchOp_keepsMemory (h : MemoryKept s t) (c : Cond) (off : BitVec 8) :
    KeepsMemory s (thumbCondBranchOp c off t) := by
  unfold thumbCondBranchOp
  split
  · exact .next h.of_eq
  · exact .next h.of_eq

/-! ### Coprocessors -/

/-- An answer of the coprocessors that is no acceptance ends in a trap or in a busy-wait. -/
theorem handshake_keepsMemory (h : MemoryKept s t) (i : Instr) {go : Nat → List Word → State → Result}
    (hgo : ∀ n data u, MemoryKept s u → KeepsMemory s (go n data u)) : KeepsMemory s (handshake i t go) := by
  unfold handshake
  split
  · exact .next (MemoryKept.raise (t := t.passed) h.of_eq ..)
  · exact .next (MemoryKept.raise (t := t.passed.answered _) h.of_eq ..)
  · exact .next h.of_eq
  · exact .next h.of_eq
  · exact hgo _ _ _ h.of_eq

theorem cdpOp_keepsMemory (h : MemoryKept s t) (i : Instr) (o : CopData) : KeepsMemory s (cdpOp i o t) := by
  unfold cdpOp
  split
  · exact .refused _
  · exact handshake_keepsMemory h i fun _ _ _ hu => .next hu.of_eq

theorem mcrOp_keepsMemory (h : MemoryKept s t) (i : Instr) (o : CopReg) : KeepsMemory s (mcrOp i o t) := by
  unfold mcrOp
  split
  · split
    · exact .next h.of_eq
    · exact .refused _
  · exact handshake_keepsMemory h i fun _ _ _ hu => .next hu.of_eq

theorem mrcOp_keepsMemory (h : MemoryKept s t) (i : Instr) (o : CopReg) : KeepsMemory s (mrcOp i o t) := by
  unfold mrcOp
  split
  · split
    · exact .next h.of_eq
    · exact .next h.of_eq
    · exact .refused _
  · refine handshake_keepsMemory h i fun _ data _ hu => ?_
    cases data
    · exact .next hu.of_eq
    · exact .next hu.of_eq

theorem ldcOp_keepsMemory (h : MemoryKept s t) (i : Instr) (m : CopMem) : KeepsMemory s (ldcOp i m t) := by
  unfold ldcOp
  split
  · exact .refused _
  · refine handshake_keepsMemory h i fun n _ u hu => ?_
    have hx : MemoryKept s (readWords (blockAddrs (CopMem.address t m) (n + 1)) u).2 := MemoryKept.readRun hu
    dsimp only
    split
    · exact .next (MemoryKept.tellWords hx).takeDataAbort
    · exact .next ((MemoryKept.tellWords hx).writeBack _).advance

end

/-! ## The dispatch -/

/-- Every row outside `mayStore` keeps memory, while no other master is about. -/
theorem exec_keepsMemory {i : Instr} {s : State} (hi : mayStore i = false) (halone : Alone s) : KeepsMemory s (exec i s) := by
  have h := MemoryKept.start halone
  have hx : MemoryKept s (s.executed true) := h.of_eq
  cases i <;> unfold exec
  case swp | swpb | strh | strtImm | strbtImm | strImm | strbImm | strtReg | strbtReg | strReg | strbReg | stm1 | stm2 | stc
      | tStrReg | tStrhReg | tStrbReg | tStrImm | tStrbImm | tStrhImm | tStrSp | tPush | tStmia =>
    cases hi
  case mul | mla =>
    exact .armGuard h (mulOp_keepsMemory hx ..)
  case umull | umlal | smull | smlal =>
    exact .armGuard h (mulLongOp_keepsMemory hx ..)
  case undArith | undLsA | undLsB | undCtlReg | undCtlImm | undSpace | undCop | swi =>
    exact .armGuard h (.next (hx.raise ..))
  case ldrh | ldrsb | ldrsh | ldrtImm | ldrbtImm | ldrImm | ldrbImm | ldrtReg | ldrbtReg | ldrReg | ldrbReg =>
    exact .armGuard h (loadOp_keepsMemory hx ..)
  case mrs =>
    exact .armGuard h (readStatus_keepsMemory hx ..)
  case msrReg | msrImm =>
    exact .armGuard h (writeStatus_keepsMemory hx ..)
  case bx =>
    exact .armGuard h (exchangeOp_keepsMemory hx _)
  case andShiftImm | eorShiftImm | subShiftImm | rsbShiftImm | addShiftImm | adcShiftImm | sbcShiftImm | rscShiftImm
      | orrShiftImm | movShiftImm | bicShiftImm | mvnShiftImm | andShiftReg | eorShiftReg | subShiftReg | rsbShiftReg
      | addShiftReg | adcShiftReg | sbcShiftReg | rscShiftReg | orrShiftReg | movShiftReg | bicShiftReg | mvnShiftReg | andImm
      | eorImm | subImm | rsbImm | addImm | adcImm | sbcImm | rscImm | orrImm | movImm | bicImm | mvnImm =>
    exact .armGuard h (dataOp_keepsMemory hx ..)
  case tstShiftImm | teqShiftImm | cmpShiftImm | cmnShiftImm | tstShiftReg | teqShiftReg | cmpShiftReg | cmnShiftReg | tstImm
      | teqImm | cmpImm | cmnImm | b | bl =>
    exact .armGuard h (.next hx.of_eq)
  case ldm1 =>
    exact .armGuard h (ldmPlain_keepsMemory hx ..)
  case ldm2 =>
    exact .armGuard h (ldmUser_keepsMemory hx ..)
  case ldm3 =>
    exact .armGuard h (ldmReturn_keepsMemory hx ..)
  case ldc =>
    exact .armGuard h (ldcOp_keepsMemory hx ..)
  case cdp =>
    exact .armGuard h (cdpOp_keepsMemory hx ..)
  case mcr =>
    exact .armGuard h (mcrOp_keepsMemory hx ..)
  case mrc =>
    exact .armGuard h (mrcOp_keepsMemory hx ..)
  case tLslImm | tLsrImm | tAsrImm | tAddReg | tSubReg | tAddImm3 | tSubImm3 | tMovImm | tAddImm | tSubImm | tAnd | tEor
      | tLsl | tLsr | tAsr | tAdc | tSbc | tRor | tNeg | tOrr | tBic | tMvn | tCmpImm | tTst | tCmp | tCmn | tCmpHi | tB
      | tBl1 | tBl2 =>
    exact .thumbGuard (.next hx.of_eq)
  case tMul =>
    exact .thumbGuard (mulOp_keepsMemory hx ..)
  case tAddHi | tMovHi | tAddPc | tAddSp | tIncSp | tDecSp =>
    exact .thumbGuard (thumbWrite_keepsMemory hx ..)
  case tBx =>
    exact .thumbGuard (exchangeOp_keepsMemory hx _)
  case tLdrPc | tLdrReg | tLdrImm | tLdrSp =>
    exact .thumbGuard (thumbLoadWord_keepsMemory hx ..)
  case tLdsbReg | tLdrhReg | tLdrbReg | tLdshReg | tLdrbImm | tLdrhImm =>
    exact .thumbGuard (loadOp_keepsMemory hx ..)
  case tPop =>
    exact .thumbGuard (popOp_keepsMemory hx ..)
  case tUnd1011 | tUndDE | tUnd11101 | tSwi =>
    exact .thumbGuard (.next (hx.raise ..))
  case tLdmia =>
    exact .thumbGuard (ldmiaOp_keepsMemory hx ..)
  case tBCond =>
    exact .thumbGuard (thumbCondBranchOp_keepsMemory hx ..)

/-- Settles O10. -/
theorem onlyStoresWrite : Obligations.OnlyStoresWrite := by
  unfold Obligations.OnlyStoresWrite
  intro i s t hi halone ht
  obtain ⟨hmem, himem, -⟩ := (exec_keepsMemory hi halone).kept t ht
  exact ⟨hmem, himem⟩

end Sys2Proof.Machine
end

section
/-!
PROOFS. 60_exceptions.md: exception entry (R660, R661, R670, R671) and the named return of each exception (R672, R700).
-/

namespace Sys2Proof.Machine

/-- Settles O40: modes and vectors are the tables of R660 and R661, and entry is `State.raise_enters`. -/
theorem exceptionEntry : Obligations.ExceptionEntry := by
  unfold Obligations.ExceptionEntry
  refine ⟨⟨rfl, rfl, rfl, rfl, rfl, rfl⟩, ⟨rfl, rfl, rfl, rfl, rfl, rfl⟩, fun e link s => ?_⟩
  exact ⟨s.raise_enters e link, s.raise_sameWorld e link⟩

/-! ## Return from a handler -/

/-- An address the interrupted program can run at is where a return to it goes on. -/
theorem returnTarget_of_codeOk {s : State} {a : Word} (h : codeOk s.cpsr a) : returnTarget s.cpsr a = a := by
  have hok : (if bitT s.cpsr then !a.getLsbD 0 else a.extractLsb' 0 2 == 0#2) = true := (pcOk_iff { s with pc := a }).mpr h
  unfold returnTarget
  split at hok
  · next ht => rw [if_pos ht, mask2_of_even (by simpa using hok)]
  · next ht => rw [if_neg ht, mask4_of_aligned (by simpa using hok)]

section
variable {h : State}

/-- SUBS PC, R14, #k returns to R14 less k. -/
theorem exec_subsPc (k : BitVec 8) : exec (.subImm .al true 14#4 15#4 ⟨0#4, k⟩) h =
    (h.executed true).exceptionReturn (h.bankReg h.mode 14#4 - k.setWidth 32) := by
  have hr : Runs (dpImm .sub .al true 14#4 15#4 ⟨0#4, k⟩) h := ⟨rfl, rfl⟩
  have hval : RotImm.value ⟨0#4, k⟩ = k.setWidth 32 := by simp [RotImm.value, BitVec.rotateRight, BitVec.rotateRightAux]
  refine (run_dpImm hr).trans ((dpBody_of_writes rfl _).trans ((dataOp_pc ..).trans ?_))
  simp [alu, subtraction, subb, op2Imm, hval, State.reg]

/-- MOVS PC, R14 returns to R14. -/
theorem exec_movsPc : exec (.movShiftImm .al true 0#4 15#4 ⟨0#5, .lsl, 14#4⟩) h =
    (h.executed true).exceptionReturn (h.bankReg h.mode 14#4) := by
  have hr : Runs (dpShiftImm .mov .al true 0#4 15#4 ⟨0#5, .lsl, 14#4⟩) h := ⟨rfl, rfl⟩
  refine (run_dpShiftImm hr).trans ((dpBody_of_writes rfl _).trans ((dataOp_pc ..).trans ?_))
  simp [alu, logical, op2ShiftImm, shiftByImm, State.reg]

variable {s : State} {e : Exc} {link : Word}

/-- What a return out of a handler restores: the SPSR of the handler's mode holds the interrupted CPSR, and of the registers only the R14 that
entry wrote differs. -/
theorem exceptionReturn_restores {i : Instr} {resume : Word} (hinv : Inv s) (he : Enters e link s h) (hw : SameWorld s h)
    (hok : codeOk s.cpsr resume) (hx : exec i h = (h.executed true).exceptionReturn resume) :
    ∃ t, exec i h = .next t ∧ t.pc = resume ∧ t.cpsr = s.cpsr ∧ OnlyRegs h.mode [14#4] s t ∧ SameWorld s t := by
  obtain ⟨-, honly, hspsr, -, hmode, -⟩ := he
  rw [← hmode] at hspsr honly
  obtain ⟨t, ht, hpc, hcpsr, -, hregs, -, tmem, timem, tpins, tsys, -, tbus, tport, tice, ttap, -, treset, tsched⟩ :=
    jumpDone_exceptionReturn hx hspsr hinv.core.mode
  obtain ⟨hmem, himem, hpins, hsys, hbus, hport, hice, htap, hreset, hsched⟩ := hw
  exact ⟨t, ht, hpc.trans (returnTarget_of_codeOk hok), hcpsr, honly.trans (hregs.mono (by simp)), tmem.trans hmem, timem.trans himem,
    tpins.trans hpins, tsys.trans hsys, tbus.trans hbus, tport.trans hport, tice.trans hice, ttap.trans htap, treset.trans hreset,
    tsched.trans hsched⟩

/-- SUBS PC, R14, #k goes back to the interrupted instruction where the link is its address + k. -/
theorem subsPc_restores {k : BitVec 8} (hinv : Inv s) (he : Enters e (s.pc + k.setWidth 32) s h) (hw : SameWorld s h) :
    ∃ t, exec (.subImm .al true 14#4 15#4 ⟨0#4, k⟩) h = .next t ∧ t.pc = s.pc ∧ t.cpsr = s.cpsr ∧ OnlyRegs h.mode [14#4] s t ∧
      SameWorld s t := by
  refine exceptionReturn_restores hinv he hw hinv.core.aligned ?_
  obtain ⟨hlink, -, -, -, hmode, -⟩ := he
  rw [exec_subsPc, hmode, hlink, BitVec.add_sub_cancel]

/-- MOVS PC, R14 goes on behind the instruction that caused the exception. -/
theorem movsPc_restores (hinv : Inv s) (he : Enters e (s.pc + s.width) s h) (hw : SameWorld s h) :
    ∃ t, exec (.movShiftImm .al true 0#4 15#4 ⟨0#5, .lsl, 14#4⟩) h = .next t ∧ t.pc = s.pc + s.width ∧ t.cpsr = s.cpsr ∧
      OnlyRegs h.mode [14#4] s t ∧ SameWorld s t := by
  refine exceptionReturn_restores hinv he hw (hinv.core.aligned.add (codeOk_width s)) ?_
  obtain ⟨hlink, -, -, -, hmode, -⟩ := he
  rw [exec_movsPc, hmode, hlink]

end

/-- Settles O41: each entry with the return that R672 names for its link. -/
theorem handlerReturns : Obligations.HandlerReturns := by
  unfold Obligations.HandlerReturns
  rintro s h i resume hinv - (⟨rfl, rfl, rfl⟩ | ⟨rfl, rfl, rfl⟩ | ⟨rfl, rfl, rfl⟩ | ⟨rfl, rfl, rfl⟩ | ⟨rfl, rfl, rfl⟩ | ⟨rfl, rfl, rfl⟩)
  · exact subsPc_restores hinv (s.raise_enters .irq _) (s.raise_sameWorld ..)
  · exact subsPc_restores hinv (s.raise_enters .fiq _) (s.raise_sameWorld ..)
  · exact subsPc_restores hinv (s.raise_enters .prefetchAbort _) (s.raise_sameWorld ..)
  · exact subsPc_restores hinv s.takeDataAbort_enters s.takeDataAbort_sameWorld
  · exact movsPc_restores hinv (s.raise_enters .undefined _) (s.raise_sameWorld ..)
  · exact movsPc_restores hinv (s.raise_enters .swi _) (s.raise_sameWorld ..)

end Sys2Proof.Machine
end

section
/-!
PROOFS. 60_exceptions.md R664, R677 to R679, R690: the exceptions that a boundary between two instructions enters. An interrupt and a
Prefetch Abort are entered in one way, `State.boundaryEntry`; what it leaves is said once, and then when a step makes it.
-/

namespace Sys2Proof.Machine

/-! ## Entry at a boundary -/

/-- Exception `e` is entered at the boundary before the instruction at the PC, whose address + 4 is the link. -/
def State.boundaryEntry (s : State) (e : Exc) : State := (s.filled.sampled.noExec.raise e (s.pc + 4#32)).afterStep

section
variable (s : State) (e : Exc) (link : Word)

/-- Nothing busy-waits any more once an exception is entered. -/
theorem State.raise_busyWait : (s.raise e link).pipe.busyWait = false := rfl

theorem State.raise_dbg : (s.raise e link).dbg = { s.dbg with watch := WatchStage.afterEntry s.dbg.watch } := by
  simp [State.raise]

theorem State.noExec_log : s.noExec.cop.log = s.cop.log ++ if s.pipe.busyWait then [.abandoned] else [] := by
  unfold State.noExec
  split
  · rfl
  · exact (List.append_nil _).symm

/-- The end of a step that completed moves the watchpoint on and makes an armed single step due (61_debug.md R752, R820). -/
theorem State.afterStep_dbg {s : State} (h : s.pipe.busyWait = false) : s.afterStep.dbg = { s.dbg with
    watch := WatchStage.advance s.dbg.watch, stepDue := s.dbg.stepDue || s.dbg.stepArmed, stepArmed := false } := by
  rw [State.afterStep, h, if_neg Bool.false_ne_true]

@[simp] theorem State.boundaryEntry_mem : (s.boundaryEntry e).mem = s.mem := by simp [State.boundaryEntry]
@[simp] theorem State.boundaryEntry_bus : (s.boundaryEntry e).bus = s.bus := by simp [State.boundaryEntry]
@[simp] theorem State.boundaryEntry_instrExec : (s.boundaryEntry e).instrExec = false := by simp [State.boundaryEntry]
@[simp] theorem State.boundaryEntry_pass : (s.boundaryEntry e).pass = false := by simp [State.boundaryEntry]

theorem State.boundaryEntry_log :
    (s.boundaryEntry e).cop.log = s.cop.log ++ if s.pipe.busyWait then [.abandoned] else [] := by
  simp [State.boundaryEntry, State.noExec_log]

theorem State.boundaryEntry_dbg : (s.boundaryEntry e).dbg = { s.dbg with
    watch := WatchStage.advance (WatchStage.afterEntry s.dbg.watch), stepDue := s.dbg.stepDue || s.dbg.stepArmed,
    stepArmed := false } := by
  rw [State.boundaryEntry, State.afterStep_dbg (State.raise_busyWait ..), State.raise_dbg]
  simp

end

/-- Entry reads HIVECS alone of the pins. -/
theorem Enters.from_hivecs {e : Exc} {link : Word} {s t u : State} (h : Enters e link t u) (hr : t.regs = s.regs)
    (hc : t.cpsr = s.cpsr) (hs : t.spsr = s.spsr) (hp : t.pins.hivecs = s.pins.hivecs) : Enters e link s u := by
  obtain ⟨hlink, honly, hspsr, hothers, hmode, hT, hI, hF, hbits, hpc⟩ := h
  exact ⟨hlink, onlyRegs_from honly hr, by rw [hspsr, hc], fun k hk => by rw [hothers k hk, hs], hmode, hT, hI, by rw [hF, hc],
    by rw [hbits, hc], by rw [hpc, hp]⟩

theorem State.boundaryEntry_enters (s : State) (e : Exc) : Enters e (s.pc + 4#32) s (s.boundaryEntry e) :=
  ((s.filled.sampled.noExec.raise_enters e (s.pc + 4#32)).from_hivecs (by simp) (by simp) (by simp) (by simp)).to
    (State.afterStep_regs ..) (State.afterStep_cpsr ..) (State.afterStep_spsr ..) (State.afterStep_pc ..)

/-! ## Interrupts -/

section
variable {s : State}

/-- IFEN is HIGH outside debug state without INTDIS (10_state.md R59). -/
theorem ifen_of_awake (ha : Awake s) (hc : s.ice.dbgCtl.getLsbD 2 = false) : ifen s = true := by
  obtain ⟨-, -, hd, -⟩ := ha
  simp only [ifen, hd, hc, Bool.not_false, Bool.and_self]

theorem State.fiqDue_of_low (hen : ifen s = true) (hlow : s.pins.nfiqLow = true) (hF : maskF s.cpsr = false) :
    s.filled.fiqDue = true := by
  simp [State.fiqDue, hen, hlow, hF]

theorem State.irqDue_of_low (hen : ifen s = true) (hlow : s.pins.nirqLow = true) (hI : maskI s.cpsr = false) :
    s.filled.irqDue = true := by
  simp [State.irqDue, hen, hlow, hI]

/-- FIQ is not due while it is masked, nor while nFIQ is HIGH and was so since the last boundary. -/
theorem State.fiqDue_eq_false (h : maskF s.cpsr = true ∨ (s.pins.nfiqLow = false ∧ s.pins.fiqPulse = false)) :
    s.filled.fiqDue = false := by
  rcases h with hF | ⟨hlow, hpulse⟩
  · simp [State.fiqDue, hF]
  · simp [State.fiqDue, hlow, hpulse]

theorem State.irqDue_eq_false (hI : maskI s.cpsr = true) : s.filled.irqDue = false := by simp [State.irqDue, hI]

/-- With no single step and no request due, a due interrupt is ahead of everything else at the boundary, a due watchpoint too (R750,
61_debug.md R754). -/
theorem boundary_interrupt (hstep : s.dbg.stepDue = false) (hreq : dbgrqi s = false) (hdue : s.interruptDue = true) :
    s.boundary = if s.fiqDue then finish (.next s.sampled.noExec.takeFiq) else finish (.next s.sampled.noExec.takeIrq) := by
  have hw : s.watchDue = false := by simp [State.watchDue, State.requestDue, hstep, hreq, hdue]
  have hr : s.requestDue = false := by simp [State.requestDue, hreq]
  rw [State.boundary, hw, hstep, hr]
  cases hf : s.fiqDue with
  | true => rfl
  | false =>
    have hi : s.irqDue = true := by simpa [State.interruptDue, hf] using hdue
    simp [hi]

/-- A due FIQ is entered. -/
theorem step_fiq (ha : Awake s) (hstep : s.dbg.stepDue = false) (hreq : dbgrqi s = false) (hf : s.filled.fiqDue = true) :
    step s = .next (s.boundaryEntry .fiq) := by
  rw [step_awake ha, boundary_interrupt (by simpa using hstep) (by simpa using hreq) (by simp [State.interruptDue, hf]), if_pos hf]
  simp [finish, State.takeFiq, State.boundaryEntry]

/-- A due IRQ is entered when no FIQ is due. -/
theorem step_irq (ha : Awake s) (hstep : s.dbg.stepDue = false) (hreq : dbgrqi s = false) (hf : s.filled.fiqDue = false)
    (hi : s.filled.irqDue = true) : step s = .next (s.boundaryEntry .irq) := by
  rw [step_awake ha, boundary_interrupt (by simpa using hstep) (by simpa using hreq) (by simp [State.interruptDue, hi]), if_neg (by simp [hf])]
  simp [finish, State.takeIrq, State.boundaryEntry]

end

/-- Settles O42: either interrupt is a boundary entry, and what that leaves does not depend on which. -/
theorem interruptTaken : Obligations.InterruptTaken := by
  unfold Obligations.InterruptTaken
  intro s ha hstep hreq hctl quiet
  have hen := ifen_of_awake ha hctl
  have hquiet (e : Exc) : quiet (s.boundaryEntry e) := by
    refine ⟨s.boundaryEntry_mem e, s.boundaryEntry_bus e, s.boundaryEntry_instrExec e, s.boundaryEntry_pass e, fun hw => ?_,
      fun hs => ?_, s.boundaryEntry_log e⟩
    · rw [State.boundaryEntry_dbg, hw]; rfl
    · rw [State.boundaryEntry_dbg, hs, Bool.or_true]
  refine ⟨fun hlow hF => ?_, fun hlow hI hF => ?_, fun hF => State.fiqDue_eq_false (.inl hF), State.irqDue_eq_false⟩
  · exact ⟨_, step_fiq ha hstep hreq (State.fiqDue_of_low hen hlow hF), s.boundaryEntry_enters .fiq, hquiet .fiq⟩
  · exact ⟨_, step_irq ha hstep hreq (State.fiqDue_eq_false hF) (State.irqDue_of_low hen hlow hI), s.boundaryEntry_enters .irq,
      hquiet .irq⟩

/-! ## Prefetch Abort -/

/-- An instruction fetched with an abort is not executed (R677). -/
theorem step_prefetchAbort {s : State} (hq : Quiet s) (ha : s.filled.fetchAborts = true) :
    step s = .next (s.boundaryEntry .prefetchAbort) := by
  have hstep := step_quiet hq
  obtain ⟨-, -, -, -, hbusy⟩ := hq
  have ha' : s.filled.sampled.fetchAborts = true := by simpa [State.fetchAborts] using ha
  rw [hstep, State.execute, ha']
  simp [hbusy, finish, State.takePrefetchAbort, State.boundaryEntry]

/-- Settles O43: the mark is that of the head of the filled queue. -/
theorem prefetchAborted : Obligations.PrefetchAborted := by
  unfold Obligations.PrefetchAborted
  intro s
  refine ⟨fun hq ha => ?entered, fun hq r hr => ?rule, fun hq hr => ?noRule, fun k q hq => ?queued⟩
  case entered =>
    exact ⟨_, step_prefetchAbort hq ha, s.boundaryEntry_enters .prefetchAbort, s.boundaryEntry_mem _, s.boundaryEntry_bus _,
      s.boundaryEntry_instrExec _⟩
  case rule => rw [State.fetchAborts, State.head_filled_nil hq, hr, Option.any_some]
  case noRule => rw [State.fetchAborts, State.head_filled_nil hq, hr, Option.any_none]
  case queued => rw [State.fetchAborts, State.head_filled hq]

end Sys2Proof.Machine
end

section
/-!
PROOFS. 61_debug.md R744 to R758, R786, R804 to R810, R815, R820: what marks a fetch, what latches a watchpoint, and entry into debug state.
-/

namespace Sys2Proof.Machine

/-! ## Watchpoint units -/

/-- A field matches when every bit that its mask does not hide agrees (R804). -/
theorem fieldMatch_iff {n : Nat} (value mask signal : BitVec n) :
    fieldMatch value mask signal = true ↔ ∀ k, k < n → mask.getLsbD k = false → value.getLsbD k = signal.getLsbD k := by
  have hbit (k : Nat) (hk : k < n) : ((value ^^^ signal) &&& ~~~mask).getLsbD k = false ↔
      (mask.getLsbD k = false → value.getLsbD k = signal.getLsbD k) := by
    rw [BitVec.getLsbD_and, BitVec.getLsbD_xor, BitVec.getLsbD_not, decide_eq_true hk]
    cases mask.getLsbD k <;> simp
  rw [fieldMatch, beq_iff_eq]
  constructor
  · intro h k hk
    rw [← hbit k hk, h, BitVec.getLsbD_zero]
  · intro h
    refine BitVec.eq_of_getLsbD_eq fun k hk => ?_
    rw [BitVec.getLsbD_zero]
    exact (hbit k hk).mpr (h k hk)

/-- The control signals of a unit, bit by bit: those of the access, then EXTERN, CHAIN and RANGE (R805). -/
theorem controlSignals_getLsbD (ctl : BitVec 5) (ext chain range : Bool) :
    (∀ k < 5, (bit range ++ bit chain ++ bit ext ++ ctl).getLsbD k = ctl.getLsbD k) ∧
      (bit range ++ bit chain ++ bit ext ++ ctl).getLsbD 5 = ext ∧ (bit range ++ bit chain ++ bit ext ++ ctl).getLsbD 6 = chain ∧
      (bit range ++ bit chain ++ bit ext ++ ctl).getLsbD 7 = range := by
  refine ⟨fun k hk => ?_, ?_, ?_, ?_⟩
  · rw [BitVec.getLsbD_append, if_pos hk]
  · simp only [BitVec.getLsbD_append]
    exact bit_getLsbD_zero ext
  · simp only [BitVec.getLsbD_append]
    exact bit_getLsbD_zero chain
  · simp only [BitVec.getLsbD_append]
    exact bit_getLsbD_zero range

/-- The control comparison of a unit, signal by signal. -/
theorem controlMatch_iff (u : Watch) (ctl : BitVec 5) (ext chain range : Bool) :
    fieldMatch (u.ctlValue.extractLsb' 0 8) u.ctlMask (bit range ++ bit chain ++ bit ext ++ ctl) = true ↔
      (∀ k, k < 5 → u.ctlMask.getLsbD k = false → u.ctlValue.getLsbD k = ctl.getLsbD k) ∧
      (u.ctlMask.getLsbD 5 = false → u.ctlValue.getLsbD 5 = ext) ∧ (u.ctlMask.getLsbD 6 = false → u.ctlValue.getLsbD 6 = chain) ∧
      (u.ctlMask.getLsbD 7 = false → u.ctlValue.getLsbD 7 = range) := by
  obtain ⟨hctl, hext, hchain, hrange⟩ := controlSignals_getLsbD ctl ext chain range
  have hvalue (k : Nat) (hk : k < 8) : (u.ctlValue.extractLsb' 0 8).getLsbD k = u.ctlValue.getLsbD k := by
    rw [BitVec.getLsbD_extractLsb', decide_eq_true hk, Bool.true_and, Nat.zero_add]
  rw [fieldMatch_iff]
  constructor
  · intro h
    refine ⟨fun k hk hm => ?_, fun hm => ?_, fun hm => ?_, fun hm => ?_⟩
    · rw [← hctl k hk, ← h k (by omega) hm, hvalue k (by omega)]
    · rw [← hext, ← h 5 (by decide) hm, hvalue 5 (by decide)]
    · rw [← hchain, ← h 6 (by decide) hm, hvalue 6 (by decide)]
    · rw [← hrange, ← h 7 (by decide) hm, hvalue 7 (by decide)]
  · rintro ⟨h, h5, h6, h7⟩ k hk hm
    rw [hvalue k hk]
    obtain hlt | rfl | rfl | rfl : k < 5 ∨ k = 5 ∨ k = 6 ∨ k = 7 := by omega
    · rw [hctl k hlt, h k hlt hm]
    · rw [hext, h5 hm]
    · rw [hchain, h6 hm]
    · rw [hrange, h7 hm]

/-- A unit requests entry when it watches the interface, is enabled, and address, data and control agree (R805, R810). -/
theorem Watch.hits_iff (u : Watch) (p : Probe) (ext chain range : Bool) : Watch.hits u p ext chain range = true ↔
    u.ctlValue.getLsbD 3 = p.data ∧ u.ctlValue.getLsbD 8 = true ∧ fieldMatch u.addrValue u.addrMask p.addr = true ∧
      fieldMatch u.dataValue u.dataMask p.value = true ∧
      fieldMatch (u.ctlValue.extractLsb' 0 8) u.ctlMask (bit range ++ bit chain ++ bit ext ++ p.ctl) = true := by
  simp only [Watch.hits, Watch.looksAt, Watch.addrCtl, Watch.dataOk, Bool.and_eq_true, beq_iff_eq]
  tauto

/-- With no watchpoint on its way, an access latches one when DBGEN is HIGH, outside debug state, and DEWPT or a unit marks it (R751). -/
theorem State.accessed_watch_hit {s : State} (e : BusEvent) (w : Word) (hidle : s.dbg.watch = .idle) :
    (s.accessed e w).dbg.watch = .hit ↔ s.pins.dbgen = true ∧ s.dbg.inDebug = false ∧
      (s.pins.dewpt = true ∨ Ice.hit s.ice s.pins (dataProbe e.addr w e.size e.write e.trans) = true) := by
  have hwatch : (s.accessed e w).dbg.watch = if s.pins.dbgen && !s.dbg.inDebug &&
      (s.pins.dewpt || Ice.hit s.ice s.pins (dataProbe e.addr w e.size e.write e.trans)) then .hit else .idle := by
    simp [State.accessed, hidle]
  rw [hwatch]
  split
  · next h => simpa [and_assoc] using h
  · next h => simpa [and_assoc] using h

/-- The fetched instruction of a ready boundary runs, and behind it the watchpoint latch moves on. -/
theorem step_executed {s u : State} (hr : Ready s) (hz : userBankHazard s.filled.sampled.fetched s.filled.sampled = false)
    (hx : exec s.filled.sampled.fetched s.filled.sampled.begin = .next u) : step s = .next u.afterStep := by
  rw [step_ready hr, State.run_of_noHazard hz, hx, finish]

/-- Settles O57: the comparison bit by bit, the latch, and what `afterStep` does with it. -/
theorem watchpointMatch : Obligations.WatchpointMatch := by
  unfold Obligations.WatchpointMatch
  refine ⟨fun u p ext chain range => ?compares, fun s e w hidle => ?latches, fun s u hr hz hx hbusy => ?moves⟩
  case compares =>
    rw [Watch.hits_iff, fieldMatch_iff, fieldMatch_iff, controlMatch_iff]
  case latches =>
    intro p u1
    rw [State.accessed_watch_hit e w hidle, Ice.hit, Bool.or_eq_true]
    rfl
  case moves =>
    refine ⟨_, step_executed hr hz hx, u.afterStep_regs, u.afterStep_cpsr, u.afterStep_pc, u.afterStep_mem, ?_⟩
    rw [State.afterStep_dbg hbusy]
    refine ⟨fun h => ?_, fun h => ?_, fun h => ⟨?_, rfl⟩⟩
    · rw [h]; rfl
    · rw [h]; rfl
    · rw [h, Bool.or_true]

/-! ## The mark of a fetch -/

/-- The mark of a fetch made now (R744, R746, R815). -/
theorem State.marked_of_empty {s : State} (hq : s.pipe.queue = []) : s.filled.marked =
    (s.pins.dbgen && (s.pins.iebkpt || s.pipe.caught || Ice.hit s.ice s.pins s.fetchSeen)) := by
  rw [State.marked, State.head_filled_nil hq]

/-- A fetch that the vector catch asks for is marked. -/
theorem State.marked_of_caught {s : State} (hq : s.pipe.queue = []) (he : s.pins.dbgen = true) (hc : s.pipe.caught = true) :
    s.filled.marked = true := by
  simp [State.marked_of_empty hq, he, hc]

/-- No exception of R660 has vector 5. -/
theorem Exc.vector_ne_five (e : Exc) : e.vector ≠ 5 := by cases e <;> decide

/-- The vector catch of a vector whose bit is set, with DBGEN HIGH and outside debug state (R815). -/
theorem State.catches_of_set {s : State} {k : Nat} (he : s.pins.dbgen = true) (hd : s.dbg.inDebug = false) (hk : k ≠ 5)
    (hc : s.ice.vecCatch.getLsbD k = true) : s.catches k = true := by
  simp [State.catches, he, hd, hk, hc]

/-- Settles O58: entry and the end of nRESET leave an empty queue and the catch of their vector. -/
theorem vectorCatch : Obligations.VectorCatch := by
  unfold Obligations.VectorCatch
  intro s he hd
  refine ⟨fun e link hc => ?_, fun hr hc => ?_⟩
  · exact State.marked_of_caught (s := s.raise e link) rfl (by simpa using he) (State.catches_of_set he hd e.vector_ne_five hc)
  · rw [State.releaseReset, if_pos hr]
    exact State.marked_of_caught rfl he (State.catches_of_set he hd (by decide) hc)

/-! ## Entry -/

/-- `t` is in debug state, entered by cause `c` with the program of `s` to resume at its PC (R758). -/
structure EntersDebug (c : DebugCause) (s t : State) : Prop where
  inDebug : t.dbg.inDebug = true
  regs : t.regs = s.regs
  cpsr : t.cpsr = s.cpsr
  spsr : t.spsr = s.spsr
  mem : t.mem = s.mem
  bus : t.bus = s.bus
  instrExec : t.instrExec = false
  queue : t.pipe.queue = []
  pcOperand : t.pcOperand = s.pc + 5#32 * s.width
  sysspeed : ∃ free, t.dbg.sysspeedBit = DebugCause.sysspeed c free

section
variable {s : State}

theorem entersDebug_self (c : DebugCause) (s : State) : EntersDebug c s (s.enterDebug c) where
  inDebug := rfl
  regs := s.enterDebug_regs c
  cpsr := s.enterDebug_cpsr c
  spsr := s.enterDebug_spsr c
  mem := s.enterDebug_mem c
  bus := s.enterDebug_bus c
  instrExec := s.enterDebug_instrExec c
  queue := rfl
  pcOperand := s.enterDebug_pcOperand c
  sysspeed := ⟨s.freeBit, rfl⟩

/-- Entry from a state that differs from `s` only in what was fetched and sampled. -/
theorem EntersDebug.from {c : DebugCause} {t u : State} (h : EntersDebug c u t) (hr : u.regs = s.regs := by simp)
    (hp : u.pc = s.pc := by simp) (hc : u.cpsr = s.cpsr := by simp) (hs : u.spsr = s.spsr := by simp)
    (hm : u.mem = s.mem := by simp) (hb : u.bus = s.bus := by simp) : EntersDebug c s t where
  inDebug := h.inDebug
  regs := h.regs.trans hr
  cpsr := h.cpsr.trans hc
  spsr := h.spsr.trans hs
  mem := h.mem.trans hm
  bus := h.bus.trans hb
  instrExec := h.instrExec
  queue := h.queue
  pcOperand := by rw [h.pcOperand, hp, State.width, State.width, hc]
  sysspeed := h.sysspeed

/-- A due watchpoint enters when a finished step or a request is due with it, or no interrupt is (R754, R820). -/
theorem step_watchpoint (ha : Awake s) (hw : s.dbg.watch = .due) (h : s.dbg.stepDue = true ∨
    (dbgrqi s = true ∧ s.pipe.busyWait = false) ∨ (s.filled.fiqDue = false ∧ s.filled.irqDue = false)) :
    ∃ t, step s = .next t ∧ EntersDebug .watchpoint s t := by
  have hdue : s.filled.watchDue = true := by
    rcases h with h | ⟨hreq, hbusy⟩ | ⟨hfiq, hirq⟩
    · simp [State.watchDue, hw, h]
    · simp [State.watchDue, State.requestDue, hw, hreq, hbusy]
    · simp [State.watchDue, State.interruptDue, hw, hfiq, hirq]
  refine ⟨s.filled.enterDebug .watchpoint, ?_, (entersDebug_self _ s.filled).from⟩
  rw [step_awake ha, State.boundary, if_pos hdue]

/-- Without a due watchpoint none enters. -/
theorem State.watchDue_eq_false (hw : s.dbg.watch ≠ .due) : s.filled.watchDue = false := by
  simp [State.watchDue, hw]

/-- A finished single step enters. -/
theorem step_singleStep (ha : Awake s) (hw : s.dbg.watch ≠ .due) (h : s.dbg.stepDue = true) :
    ∃ t, step s = .next t ∧ EntersDebug .singleStep s t := by
  refine ⟨s.filled.enterDebug .singleStep, ?_, (entersDebug_self _ s.filled).from⟩
  rw [step_awake ha, State.boundary, State.watchDue_eq_false hw]
  simp [h]

/-- A debug request enters, unless a coprocessor instruction busy-waits (R757). -/
theorem step_request (ha : Awake s) (hw : s.dbg.watch ≠ .due) (hstep : s.dbg.stepDue = false) (h : dbgrqi s = true)
    (hbusy : s.pipe.busyWait = false) : ∃ t, step s = .next t ∧ EntersDebug .request s t := by
  refine ⟨s.filled.enterDebug .request, ?_, (entersDebug_self _ s.filled).from⟩
  rw [step_awake ha, State.boundary, State.watchDue_eq_false hw]
  simp [State.requestDue, hstep, h, hbusy]

/-- A marked fetch enters instead of executing (R746, R750). -/
theorem step_breakpoint (hq : Quiet s) (ha : s.filled.fetchAborts = false) (hm : s.filled.marked = true) :
    ∃ t, step s = .next t ∧ EntersDebug .breakpoint s t := by
  refine ⟨s.filled.sampled.enterDebug .breakpoint, ?_, (entersDebug_self _ s.filled.sampled).from⟩
  have hstep := step_quiet hq
  obtain ⟨-, -, -, -, hbusy⟩ := hq
  have ha' : s.filled.sampled.fetchAborts = false := by simpa [State.fetchAborts] using ha
  have hm' : s.filled.sampled.marked = true := by simpa [State.marked] using hm
  rw [hstep, State.execute, ha', hm']
  simp [hbusy]

/-- Outside debug state, with a place in the queue, the fetch of a move is the next one (log 36). -/
theorem step_fetch {rest : List Move} (h : s.schedule = .fetch :: rest) (hr : s.inReset = false) (hd : s.dbg.inDebug = false)
    (hc : s.cutOff = false) (hw : s.pipe.wrapped = false) (hq : s.pipe.queue.length < 3) :
    step s = .next (State.fetchNext { s with schedule := rest }) :=
  (step_move h).trans (State.fetchStep_next (s := { s with schedule := rest }) hr hd hc hw hq)

end

/-- Settles O54: one entry for each cause, and the fetch of a move. -/
theorem debugEntry : Obligations.DebugEntry := by
  unfold Obligations.DebugEntry
  refine ⟨fun s ha hcause => ?entry, fun s rest hsched hreset hdebug hcut hwrap hqueue => ?fetch⟩
  case entry =>
    have hentry : ∃ c t, step s = .next t ∧ EntersDebug c s t ∧ (s.dbg.watch = .due → c = .watchpoint) ∧
        (s.dbg.watch ≠ .due → s.dbg.stepDue = false → dbgrqi s = false → c = .breakpoint) := by
      rcases hcause with ⟨hw, h⟩ | ⟨hw, h⟩ | ⟨hw, hstep, h, hbusy⟩ | ⟨hq, habort, h⟩
      · obtain ⟨t, ht, he⟩ := step_watchpoint ha hw h
        exact ⟨_, t, ht, he, fun _ => rfl, fun hn => absurd hw hn⟩
      · obtain ⟨t, ht, he⟩ := step_singleStep ha hw h
        exact ⟨_, t, ht, he, fun hd => absurd hd hw, fun _ hn => by simp [h] at hn⟩
      · obtain ⟨t, ht, he⟩ := step_request ha hw hstep h hbusy
        exact ⟨_, t, ht, he, fun hd => absurd hd hw, fun _ _ hn => by simp [h] at hn⟩
      · obtain ⟨t, ht, he⟩ := step_breakpoint hq habort h
        obtain ⟨-, ⟨hw, -⟩, -⟩ := hq
        exact ⟨_, t, ht, he, fun hd => absurd hd hw, fun _ _ _ => rfl⟩
    obtain ⟨c, t, ht, he, hwatch, hmark⟩ := hentry
    obtain ⟨free, hfree⟩ := he.sysspeed
    refine ⟨t, ht, he.inDebug, by simp [dbgack, he.inDebug], by simp [ifen, he.inDebug], he.regs, he.cpsr, he.spsr, he.mem, he.bus,
      he.instrExec, he.queue, he.pcOperand, fun hd => ?_, fun hw hs hr => ?_⟩
    · rw [hfree, hwatch hd]; rfl
    · rw [hfree, hmark hw hs hr]; rfl
  case fetch =>
    refine ⟨_, _, step_fetch hsched hreset hdebug hcut hwrap hqueue, rfl, ?_, rfl, rfl, rfl, rfl, rfl, rfl, rfl, rfl,
      State.filled_fetchNext hqueue⟩
    simp only [Bool.and_eq_true, Bool.or_eq_true, or_assoc]
    rfl

end Sys2Proof.Machine
end

section
/-!
PROOFS. 61_debug.md R760, R764, R771, R772, R782 to R787, R856: what the core does in debug state, and how it is left. What comes back
from an access at system speed is `State.afterSystemStep`, field by field.
-/

namespace Sys2Proof.Machine

/-- A result with `f` applied to a next state: what a move of the debugger makes of that of its instruction. -/
def mapNext (f : State → State) : Result → Result
  | .next t => .next (f t)
  | .fault e => .fault e
  | .refused r => .refused r

section
variable {s : State}

/-! ## At debug speed -/

/-- In debug state the core does nothing by itself (R760). -/
theorem step_inDebug (hd : s.dbg.inDebug = true) (hs : s.schedule = []) : step s = .next s := by
  rw [step, hs]
  simp [State.coreStep, hd]

theorem debugSpeed_of_inDebug (hd : s.dbg.inDebug = true) (hs : s.dbg.sysSpeed = false) : s.debugSpeed = true := by
  simp [State.debugSpeed, hd, hs]

/-- A store at debug speed goes to the scanned-out words and not to memory (R760). -/
theorem State.writeData_debugSpeed (h : s.debugSpeed = true) (a : Word) (size : Size) (v : Word) (user : Bool) (b : Beat) (late : Bool) :
    (s.writeData a size v user b late).2.mem = s.mem ∧
      (s.writeData a size v user b late).2.dbg.ddOut = s.dbg.ddOut ++ [ddCopies size v] := by
  rw [State.writeData, if_pos h]
  exact ⟨rfl, rfl⟩

/-- A load at debug speed takes the scanned-in word (R760). -/
theorem State.readData_debugSpeed (h : s.debugSpeed = true) {w : Word} {ws : List Word} (hw : s.dbg.ddIn = w :: ws) (a : Word)
    (size : Size) (user : Bool) (b : Beat) : (s.readData a size user b).1 = some (lane s.pins.bigend size a w) ∧
      (s.readData a size user b).2.dbg.ddIn = ws := by
  rw [State.readData, if_pos h, hw]
  refine ⟨rfl, ?_⟩
  rw [State.drawn_dbg, State.showed_dbg, hw, List.tail_cons]

/-- The state in which the move `debugStep` runs its instruction. -/
def State.scanning (s : State) (rest : List Move) (ws : List Word) : State :=
  { s with schedule := rest, dbg := { s.dbg with ddIn := ws, ddOut := [] } }

/-- The words scanned in that no load has taken are dropped. -/
def State.dropWords (s : State) : State := { s with dbg := { s.dbg with ddIn := [] } }

/-- The move is one instruction at debug speed. -/
theorem step_debugStep {id : Word} {ws : List Word} {rest : List Move} (hd : s.dbg.inDebug = true)
    (h : s.schedule = .debugStep id ws :: rest) :
    step s = mapNext State.dropWords ((s.scanning rest ws).debugSpeedStep id) :=
  (step_move h).trans (if_pos hd)

theorem debugSpeedStep_refused {id : Word} (hl : Instr.debugLegal (s.scanned id) = false) :
    s.debugSpeedStep id = .refused .notInDebugState := if_pos hl

/-- A banked register named right behind LDM (2) or STM (2) is a fault here too (70_reset_and_hazards.md R921). -/
theorem debugSpeedStep_hazard {id : Word} (hl : Instr.debugLegal (s.scanned id) = true)
    (hz : userBankHazard (s.scanned id) s = true) : s.debugSpeedStep id = .fault .userBankHazard :=
  (if_neg (by simp [hl])).trans (if_pos hz)

/-- A legal instruction runs as `exec` does (R771, R772). -/
theorem debugSpeedStep_runs {id : Word} (hl : Instr.debugLegal (s.scanned id) = true)
    (hz : userBankHazard (s.scanned id) s = false) : s.debugSpeedStep id = exec (s.scanned id) s.begin :=
  (if_neg (by simp [hl])).trans (if_neg (ne_true_of_eq_false hz))

/-! ## At system speed -/

/-- The state in which the move `systemStep` runs its instruction. -/
def State.speeding (s : State) (rest : List Move) : State :=
  { s.begin with schedule := rest, dbg := { s.dbg with sysSpeed := true } }

theorem step_systemStep {id : Word} {rest : List Move} (hd : s.dbg.inDebug = true) (h : s.schedule = .systemStep id :: rest) :
    step s = if s.ice.dbgCtl.getLsbD 3 then .refused .singleStepSystemSpeed
      else if Instr.isTransfer (s.scanned id) = false then .refused .notAtSystemSpeed
      else if userBankHazard (s.scanned id) s then .fault .userBankHazard
      else mapNext (State.afterSystemStep { s with schedule := rest }) (exec (s.scanned id) (s.speeding rest)) :=
  (step_move h).trans (if_neg (by simp [hd]))

section
variable (s t : State)

/-- What comes back however the access ended: memory, bus and CPSR of the instruction, and the debug latches (R764, R783, R784). -/
theorem State.afterSystemStep_keeps : (s.afterSystemStep t).mem = t.mem ∧ (s.afterSystemStep t).bus = t.bus ∧
    (s.afterSystemStep t).cpsr = t.cpsr ∧ (s.afterSystemStep t).dbg = { t.dbg with
      sysSpeed := false, sysComp := true, sysspeedBit := true, watch := .idle, ddOut := [],
      ackFalls := t.dbg.ackFalls + if t.ice.dbgCtl.getLsbD 0 then 0 else 1 } := by
  unfold State.afterSystemStep
  dsimp only
  split
  · simp
  · split
    · exact ⟨rfl, rfl, rfl, rfl⟩
    · exact ⟨rfl, rfl, rfl, rfl⟩

variable {s t}

/-- After an access that completed: the registers as the instruction left them, the PC five instructions on where it only went on to the
next one (R785). -/
theorem State.afterSystemStep_completed (h : abortedSince s t = false) : (s.afterSystemStep t).regs = t.regs ∧
    (t.pc = s.pc + s.width → (s.afterSystemStep t).pc = s.pc + 5#32 * s.width) := by
  unfold State.afterSystemStep
  rw [h]
  dsimp only
  rw [if_neg Bool.false_ne_true]
  split
  · exact ⟨rfl, fun _ => rfl⟩
  · next hn => exact ⟨rfl, fun hp => absurd hp hn⟩

/-- What R15 reads where the PC has the form it has on entry into debug state (R786). -/
theorem State.pcOperand_of_debugPc {u : State} (hp : u.pc = t.debugPc) (hc : u.cpsr = t.cpsr) :
    u.pcOperand = t.pc + 5#32 * t.width := by
  rw [← t.enterDebug_pcOperand .request, State.pcOperand, State.pcOperand, hp, hc, State.enterDebug_cpsr, State.enterDebug_pc]

/-- After one that aborted: R14_abt is open, and the PC has the form it has on entry (R712, R785). -/
theorem State.afterSystemStep_aborted (h : abortedSince s t = true) : OnlyRegs abtMode [14#4] t (s.afterSystemStep t) ∧
    (s.afterSystemStep t).pcOperand = t.pc + 5#32 * t.width := by
  obtain ⟨-, -, hcpsr, -⟩ := s.afterSystemStep_keeps t
  refine ⟨?_, State.pcOperand_of_debugPc ?_ hcpsr⟩
  · rw [State.afterSystemStep, if_pos h]
    exact onlyRegs_from (onlyRegs_of_regs (OnlyRegs.setBankReg _ abtMode 14#4 _) rfl) rfl
  · rw [State.afterSystemStep, if_pos h]
    rfl

end

/-! ## Leaving debug state -/

/-- The state after `exit_debug(target)`. -/
def State.exited (s : State) (rest : List Move) (target : Word) : State :=
  { s.leaveDebug with pc := s.codeAddress target, schedule := rest }

theorem step_exitDebug {target : Word} {rest : List Move} (hd : s.dbg.inDebug = true) (h : s.schedule = .exitDebug target :: rest) :
    step s = .next (s.exited rest target) :=
  (step_move h).trans (if_pos hd)

/-- DBGACK masks one fetch less with every fetch (R764). -/
theorem dbgack_fetchNext (s : State) : dbgack s.fetchNext =
    (s.dbg.inDebug || s.pipe.ackFetches - 1 != 0 || s.ice.dbgCtl.getLsbD 0) := rfl

/-- After the third fetch only debug control bit 0 holds DBGACK HIGH (10_state.md R59). -/
theorem dbgack_exited_filled (s : State) (rest : List Move) (target : Word) :
    dbgack (s.exited rest target).filled = s.ice.dbgCtl.getLsbD 0 :=
  dbgack_fetchNext (s.exited rest target).fetchNext.fetchNext

end

/-- Settles O55, one clause for each move of the debugger and for each way data goes at debug speed. -/
theorem debugState : Obligations.DebugState := by
  unfold Obligations.DebugState
  intro s rest hd
  refine ⟨step_inDebug hd, fun id ws h => ⟨fun hl => ?_, fun hl hz => ?_, fun u hl hz hx => ?_⟩,
    fun id h => ⟨fun hss => ?_, fun hss htr => ?_, fun u hss htr hz hx => ?system⟩, fun a size v user b late hsp => ?_,
    fun w ws a size user b hsp hw => ?_, fun target h => ?leaves⟩
  · rw [step_debugStep hd h, debugSpeedStep_refused (s := s.scanning rest ws) hl, mapNext]
  · rw [step_debugStep hd h, debugSpeedStep_hazard (s := s.scanning rest ws) hl hz, mapNext]
  · rw [step_debugStep hd h, debugSpeedStep_runs (s := s.scanning rest ws) hl hz]
    exact congrArg (mapNext State.dropWords) hx
  · rw [step_systemStep hd h, if_pos hss]
  · rw [step_systemStep hd h, if_neg (ne_true_of_eq_false hss), if_pos htr]
  case system =>
    have hx' : exec (s.scanned id) (s.speeding rest) = .next u := hx
    refine ⟨State.afterSystemStep { s with schedule := rest } u, ?_, ?_⟩
    · rw [step_systemStep hd h, if_neg (ne_true_of_eq_false hss), if_neg (by simp [htr]), if_neg (ne_true_of_eq_false hz), hx', mapNext]
    · obtain ⟨hmem, hbus, hcpsr, hdbg⟩ := State.afterSystemStep_keeps { s with schedule := rest } u
      rw [hdbg]
      exact ⟨rfl, rfl, rfl, hmem, hbus, hcpsr, rfl, fun hc => by rw [hc, if_neg Bool.false_ne_true],
        State.afterSystemStep_completed (s := { s with schedule := rest }),
        State.afterSystemStep_aborted (s := { s with schedule := rest })⟩
  · exact State.writeData_debugSpeed (debugSpeed_of_inDebug hd hsp) ..
  · exact State.readData_debugSpeed (debugSpeed_of_inDebug hd hsp) hw ..
  case leaves =>
    exact ⟨_, step_exitDebug hd h, rfl, rfl, rfl, rfl, rfl, rfl, rfl, rfl, rfl, rfl, rfl, dbgack_exited_filled s rest target⟩

end Sys2Proof.Machine
end

section
/-!
PROOFS. 61_debug.md R771, R781, R782, R787, R790, R793 to R800: the TAP controller cycle by cycle. A cycle of TCK that does not come to
Run-Test/Idle is `State.tckCycle`; one that comes there from Update-DR or Update-IR ends in `State.runTestIdle`.
-/

namespace Sys2Proof.Machine

/-! ## What a cycle leaves alone -/

/-- `t` has the registers, the PC, the CPSR, the memory, the pins and the moves to come of `s`. -/
structure CoreKept (s t : State) : Prop where
  regs : t.regs = s.regs
  cpsr : t.cpsr = s.cpsr
  pc : t.pc = s.pc
  mem : t.mem = s.mem
  pins : t.pins = s.pins
  schedule : t.schedule = s.schedule

theorem CoreKept.refl (s : State) : CoreKept s s := ⟨rfl, rfl, rfl, rfl, rfl, rfl⟩

theorem CoreKept.trans {s t u : State} (h : CoreKept s t) (h' : CoreKept t u) : CoreKept s u :=
  ⟨h'.regs.trans h.regs, h'.cpsr.trans h.cpsr, h'.pc.trans h.pc, h'.mem.trans h.mem, h'.pins.trans h.pins,
    h'.schedule.trans h.schedule⟩

theorem CoreKept.captureDr (s : State) : CoreKept s s.captureDr := by
  unfold State.captureDr
  split <;> constructor <;> rfl

theorem CoreKept.updateDr (s : State) : CoreKept s s.updateDr := by
  unfold State.updateDr
  split
  · constructor <;> rfl
  · dsimp only
    split <;> constructor <;> rfl
  · exact .refl s

theorem CoreKept.tckRise (s : State) (tdi : Bool) : CoreKept s (s.tckRise tdi) := by
  unfold State.tckRise
  split
  · exact .captureDr s
  all_goals constructor <;> rfl

theorem CoreKept.tckFall (s : State) : CoreKept s s.tckFall := by
  unfold State.tckFall
  split
  case h_3 => exact .updateDr s
  all_goals constructor <;> rfl

/-! ## One cycle -/

/-- Both edges of a cycle of TCK, what happens in Run-Test/Idle aside. -/
def State.tckCycle (s : State) (tms tdi : Bool) : State := ((s.tckRise tdi).tapTo (s.tap.st.next tms)).tckFall

theorem CoreKept.tckCycle (s : State) (tms tdi : Bool) : CoreKept s (s.tckCycle tms tdi) :=
  (CoreKept.trans (.tckRise s tdi) (by constructor <;> rfl)).trans (.tckFall _)

theorem Tap.loadIr_st (t : Tap) (ir : BitVec 4) : (t.loadIr ir).st = t.st := by
  unfold Tap.loadIr
  dsimp only
  split <;> rfl

theorem State.updateDr_st (s : State) : s.updateDr.tap.st = s.tap.st := by
  unfold State.updateDr
  split
  · rfl
  · dsimp only
    split <;> rfl
  · rfl

/-- The falling edge leaves the controller in its state. -/
theorem State.tckFall_st (s : State) : s.tckFall.tap.st = s.tap.st := by
  unfold State.tckFall
  split
  case h_1 h => exact h.symm
  case h_2 => exact Tap.loadIr_st ..
  case h_3 => exact s.updateDr_st
  all_goals rfl

theorem State.tckCycle_st (s : State) (tms tdi : Bool) : (s.tckCycle tms tdi).tap.st = s.tap.st.next tms := State.tckFall_st _

/-- Coming to Test-Logic-Reset selects IDCODE and scan chain 3 (log 32). -/
theorem State.tckFall_reset {s : State} (h : s.tap.st = .testLogicReset) :
    TapInstr.ofCode s.tckFall.tap.ir = .idcode ∧ s.tckFall.tap.screg = 3#5 := by
  rw [State.tckFall, h]
  exact ⟨rfl, rfl⟩

section
variable {s : State} {tms tdi : Bool} {rest : List Move}

/-- A cycle that does not come to Run-Test/Idle. -/
theorem step_tck (hs : s.schedule = .tck tms tdi :: rest) (hn : s.pins.ntrstLow = false) (h : s.tap.st.next tms ≠ .runTestIdle) :
    step s = .next (State.tckCycle { s with schedule := rest } tms tdi) := by
  refine (step_move hs).trans ?_
  rw [State.move, State.tck, if_neg (by simp [hn]), if_neg fun hi => h hi.1]
  rfl

/-- A cycle that comes to Run-Test/Idle from an update state. -/
theorem step_tck_idle (hs : s.schedule = .tck false tdi :: rest) (hn : s.pins.ntrstLow = false)
    (hst : s.tap.st = .updateDr ∨ s.tap.st = .updateIr) : step s = (s.idled rest).runTestIdle := by
  refine (step_move hs).trans ?_
  have hnext : s.tap.st.next false = .runTestIdle ∧ s.tap.st ≠ .runTestIdle := by rcases hst with h | h <;> rw [h] <;> decide
  have hrise : State.tckRise { s with schedule := rest } tdi = { s with schedule := rest } := by
    rcases hst with h | h <;> simp [State.tckRise, h]
  rw [State.move, State.tck, if_neg (by simp [hn]), if_pos hnext, hrise, State.tapTo, hnext.1]
  rfl

/-! ## Test-Logic-Reset -/

/-- With TMS HIGH no state is followed by Run-Test/Idle, and the fifth is Test-Logic-Reset (R790). -/
theorem TapState.next_high (st : TapState) : st.next true ≠ .runTestIdle := by cases st <;> decide

theorem TapState.next_high_five (st : TapState) :
    ((((st.next true).next true).next true).next true).next true = .testLogicReset := by cases st <;> rfl

/-- A cycle with TMS HIGH. -/
theorem step_tck_high (hs : s.schedule = .tck true tdi :: rest) (hn : s.pins.ntrstLow = false) :
    ∃ t, step s = .next t ∧ CoreKept { s with schedule := rest } t ∧ t.tap.st = s.tap.st.next true ∧
      (t.tap.st = .testLogicReset → TapInstr.ofCode t.tap.ir = .idcode ∧ t.tap.screg = 3#5) :=
  ⟨_, step_tck hs hn (TapState.next_high _), .tckCycle .., State.tckCycle_st ..,
    fun h => State.tckFall_reset ((State.tckCycle_st ..).symm.trans h)⟩

/-! ## Shifting -/

/-- A register shifted by one place takes TDI at its top (R793). -/
theorem shiftIn_eq {n : Nat} (r : BitVec (1 + n)) (tdi : Bool) : shiftIn r tdi = BitVec.ofBool tdi ++ r.extractLsb' 1 n := by
  refine BitVec.eq_of_getLsbD_eq fun k hk => ?_
  rw [shiftIn, BitVec.getLsbD_or, BitVec.getLsbD_ushiftRight, BitVec.getLsbD_shiftLeft, BitVec.getLsbD_setWidth,
    BitVec.getLsbD_append, BitVec.getLsbD_extractLsb', decide_eq_true hk, Bool.true_and]
  obtain hlt | rfl : k < n ∨ k = n := by omega
  · simp [hlt]
  · simp

/-- In Shift-DR and Exit1-DR the falling edge keeps the shift registers. -/
theorem State.tckFall_keeps_shift {s : State} (h : s.tap.st = .shiftDr ∨ s.tap.st = .exit1Dr) :
    s.tckFall.tap.scShift = s.tap.scShift ∧ s.tckFall.tap.chain1 = s.tap.chain1 ∧ s.tckFall.tap.chain2 = s.tap.chain2 := by
  rcases h with h | h <;> rw [State.tckFall, h] <;> exact ⟨rfl, rfl, rfl⟩

/-- A cycle from Capture-DR or Shift-DR leaves in the shift registers what its rising edge put there. -/
theorem step_tck_data (hs : s.schedule = .tck tms tdi :: rest) (hn : s.pins.ntrstLow = false)
    (hst : s.tap.st = .captureDr ∨ s.tap.st = .shiftDr) :
    let u := State.tckRise { s with schedule := rest } tdi
    ∃ t, step s = .next t ∧ t.tap.scShift = u.tap.scShift ∧ t.tap.chain1 = u.tap.chain1 ∧ t.tap.chain2 = u.tap.chain2 := by
  have hnext : s.tap.st.next tms = .shiftDr ∨ s.tap.st.next tms = .exit1Dr := by
    rcases hst with h | h <;> rw [h] <;> cases tms <;> decide
  have hidle : s.tap.st.next tms ≠ .runTestIdle := by rcases hnext with h | h <;> rw [h] <;> decide
  exact ⟨_, step_tck hs hn hidle, State.tckFall_keeps_shift hnext⟩

theorem Tap.selected_scanN {t : Tap} (h : TapInstr.ofCode t.ir = .scanN) : t.selected = .scanSelect := by rw [Tap.selected, h]

theorem Tap.selected_intest {t : Tap} (h : TapInstr.ofCode t.ir = .intest) : t.selected = chainOf t.screg := by rw [Tap.selected, h]

/-- Capture-DR of the scan path select register (R795). -/
theorem State.tckRise_capture_scanN (hst : s.tap.st = .captureDr) (hi : TapInstr.ofCode s.tap.ir = .scanN) :
    (s.tckRise tdi).tap.scShift = 0b10000#5 := by
  rw [State.tckRise, hst]
  dsimp only
  rw [State.captureDr, Tap.selected_scanN hi]

theorem State.tckRise_shift (hst : s.tap.st = .shiftDr) : (s.tckRise tdi).tap = s.tap.shiftDr tdi := by
  rw [State.tckRise, hst]

/-- Update-DR of SCAN_N selects the chain shifted in (R795, R796). -/
theorem State.tckFall_update_scanN (hst : s.tap.st = .updateDr) (hi : TapInstr.ofCode s.tap.ir = .scanN) :
    s.tckFall.tap.screg = s.tap.scShift := by
  rw [State.tckFall, hst]
  dsimp only
  rw [State.updateDr, hi]

/-- Exit1-DR to Update-DR under SCAN_N. -/
theorem step_tck_update_scanN (hs : s.schedule = .tck true tdi :: rest) (hn : s.pins.ntrstLow = false) (hst : s.tap.st = .exit1Dr)
    (hi : TapInstr.ofCode s.tap.ir = .scanN) :
    ∃ t, step s = .next t ∧ t.tap.st = .updateDr ∧ t.tap.screg = s.tap.scShift := by
  have hnext : s.tap.st.next true = .updateDr := by rw [hst]; rfl
  have hrise : State.tckRise { s with schedule := rest } tdi = { s with schedule := rest } := by simp [State.tckRise, hst]
  refine ⟨_, step_tck hs hn (by rw [hnext]; decide), (State.tckCycle_st ..).trans hnext, ?_⟩
  rw [State.tckCycle, hrise]
  exact State.tckFall_update_scanN hnext hi

end

/-! ## Run-Test/Idle -/

section
variable {s : State} {p : Word}

/-- Under INTEST with scan chain 1 a pass is a cycle of DCLK (R771). -/
theorem State.runTestIdle_chain1 (hd : s.dbg.inDebug = true) (hi : TapInstr.ofCode s.tap.ir = .intest) (hc : s.tap.screg = 1#5) :
    s.runTestIdle = s.dclk := by
  rw [State.runTestIdle, Tap.selected_intest hi, hi, hc]
  exact if_pos hd

/-- The first instruction scanned in waits for the SYSSPEED bit of the next (R781). -/
theorem State.dclk_first (hz : s.dbg.discard = 0) (hp : s.dbg.pending = none) : s.dclk =
    .next { s.nextWord with dbg := { s.nextWord.dbg with pending := some s.tap.idCells } } := by
  simp [State.dclk, State.nextWord, hz, hp]

/-- With SYSSPEED HIGH the one before waits for RESTART (R782). -/
theorem State.dclk_sysspeed (hz : s.dbg.discard = 0) (hp : s.dbg.pending = some p) (hc : s.tap.sysspeedCell = true) : s.dclk =
    .next { s.nextWord with dbg := { s.nextWord.dbg with restart := true, scans := s.nextWord.dbg.scans + 1 } } := by
  simp [State.dclk, State.nextWord, hz, hp, hc]

/-- With SYSSPEED LOW the one before runs at debug speed, and the new one waits (R771). -/
theorem State.dclk_runs {u : State} (hz : s.dbg.discard = 0) (hp : s.dbg.pending = some p) (hc : s.tap.sysspeedCell = false)
    (hneed : s.needs (s.scanned p) = 0) (hx : s.nextWord.debugSpeedStep p = .next u) :
    s.dclk = .next (s.nextWord.queueScanned u s.tap.idCells) := by
  have hz' : s.nextWord.dbg.discard = 0 := hz
  have hp' : s.nextWord.dbg.pending = some p := hp
  have hc' : s.nextWord.tap.sysspeedCell = false := hc
  have hneed' : s.nextWord.needs (s.nextWord.scanned p) = 0 := hneed
  simp only [State.dclk, hz', hp', hc', hneed', hx, ne_eq, not_true_eq_false, Bool.false_eq_true, if_false, if_true, Nat.not_lt_zero]
  rfl

/-- What waits after an instruction has run leaves its effect as it is. -/
theorem State.queueScanned_keeps (s u : State) (id : Word) : (s.queueScanned u id).regs = u.regs ∧
    (s.queueScanned u id).cpsr = u.cpsr ∧ (s.queueScanned u id).pc = u.pc ∧ (s.queueScanned u id).mem = u.mem ∧
    (s.queueScanned u id).dbg.ddOut = u.dbg.ddOut ∧ (s.queueScanned u id).dbg.restart = false ∧
    (bitT u.cpsr = bitT s.cpsr → (s.queueScanned u id).dbg.pending = some id) := by
  unfold State.queueScanned
  split
  · exact ⟨rfl, rfl, rfl, rfl, rfl, rfl, fun _ => rfl⟩
  · next hn => exact ⟨rfl, rfl, rfl, rfl, rfl, rfl, fun ht => absurd ht hn⟩

/-- RESTART with an instruction held that writes the PC runs it at debug speed and leaves debug state where it went (R787). -/
theorem State.runTestIdle_exit {u : State} (hd : s.dbg.inDebug = true) (hi : TapInstr.ofCode s.tap.ir = .restart)
    (hr : s.dbg.restart = true) (hp : s.dbg.pending = some p) (ht : Instr.isTransfer (s.scanned p) = false)
    (he : Instr.isExit (s.scanned p) = true) (hx : s.restarting.debugSpeedStep p = .next u) :
    s.runTestIdle = .next { u.leaveDebug with pc := u.codeAddress u.pc } := by
  have hidle : s.runTestIdle = { s with tap := { s.tap with cells := .normal } }.restartCore := by
    rw [State.runTestIdle, hi]
    exact if_pos hd
  have ht' : Instr.isTransfer ({ s with tap := { s.tap with cells := .normal } }.scanned p) = false := ht
  have he' : Instr.isExit ({ s with tap := { s.tap with cells := .normal } }.scanned p) = true := he
  rw [State.restarting] at hx
  simp only [hidle, State.restartCore, hr, hp, ht', he', hx, Bool.false_eq_true, if_false, if_true]

end

/-- Settles O59, one clause for each kind of cycle. -/
theorem tapReset : Obligations.TapReset := by
  unfold Obligations.TapReset
  intro s rest hn
  refine ⟨fun h => ?reset, fun tms tdi h hi => ⟨fun hst => ?_, fun hst => ?_, fun hst htms => ?_⟩,
    fun tms tdi h hi hst => ⟨fun hc => ?_, fun hc => ?_⟩, fun tdi h hst hd => ?idle, fun tdi p u h hst hd hi hr hp ht he hx => ?exit⟩
  case reset =>
    obtain ⟨t1, h1, k1, st1, -⟩ := step_tck_high h hn
    obtain ⟨t2, h2, k2, st2, -⟩ := step_tck_high k1.schedule (k1.pins ▸ hn)
    obtain ⟨t3, h3, k3, st3, -⟩ := step_tck_high k2.schedule (k2.pins ▸ k1.pins ▸ hn)
    obtain ⟨t4, h4, k4, st4, -⟩ := step_tck_high k3.schedule (k3.pins ▸ k2.pins ▸ k1.pins ▸ hn)
    obtain ⟨t, h5, k5, st5, hreset⟩ := step_tck_high k4.schedule (k4.pins ▸ k3.pins ▸ k2.pins ▸ k1.pins ▸ hn)
    have hst : t.tap.st = .testLogicReset := by rw [st5, st4, st3, st2, st1, TapState.next_high_five]
    exact ⟨t1, t2, t3, t4, t, h1, h2, h3, h4, h5, hst, (hreset hst).1, (hreset hst).2,
      k5.regs.trans (k4.regs.trans (k3.regs.trans (k2.regs.trans k1.regs))),
      k5.cpsr.trans (k4.cpsr.trans (k3.cpsr.trans (k2.cpsr.trans k1.cpsr))),
      k5.pc.trans (k4.pc.trans (k3.pc.trans (k2.pc.trans k1.pc))),
      k5.mem.trans (k4.mem.trans (k3.mem.trans (k2.mem.trans k1.mem))), k5.schedule⟩
  · obtain ⟨t, ht, hsc, -, -⟩ := step_tck_data h hn (.inl hst)
    exact ⟨t, ht, hsc.trans (State.tckRise_capture_scanN hst hi)⟩
  · obtain ⟨t, ht, hsc, -, -⟩ := step_tck_data h hn (.inr hst)
    refine ⟨t, ht, ?_⟩
    rw [hsc, State.tckRise_shift (by exact hst), Tap.shiftDr, Tap.selected_scanN (by exact hi)]
    exact shiftIn_eq (n := 4) ..
  · subst htms
    exact step_tck_update_scanN h hn hst hi
  · obtain ⟨t, ht, -, h1, -⟩ := step_tck_data h hn (.inr hst)
    refine ⟨t, ht, ?_⟩
    rw [h1, State.tckRise_shift (by exact hst), Tap.shiftDr, Tap.selected_intest (by exact hi), hc]
    exact shiftIn_eq (n := 66) ..
  · obtain ⟨t, ht, -, -, h2⟩ := step_tck_data h hn (.inr hst)
    refine ⟨t, ht, ?_⟩
    rw [h2, State.tckRise_shift (by exact hst), Tap.shiftDr, Tap.selected_intest (by exact hi), hc]
    exact shiftIn_eq (n := 37) ..
  case idle =>
    intro s0 hi hc hz
    have hstep : step s = (s.idled rest).dclk := (step_tck_idle h hn (.inl hst)).trans (State.runTestIdle_chain1 hd hi hc)
    refine ⟨fun hp => ?_, fun p hp hcell => ?_, fun p u hp hcell hneed hx => ?_⟩
    · exact hstep.trans (State.dclk_first (s := s.idled rest) hz hp)
    · exact hstep.trans (State.dclk_sysspeed (s := s.idled rest) hz hp hcell)
    · exact ⟨_, hstep.trans (State.dclk_runs (s := s.idled rest) hz hp hcell hneed hx), State.queueScanned_keeps s0 u s.tap.idCells⟩
  case exit =>
    exact ⟨_, (step_tck_idle h hn (.inr hst)).trans (State.runTestIdle_exit (s := s.idled rest) hd hi hr hp ht he hx), rfl, rfl, rfl,
      rfl, rfl⟩

end Sys2Proof.Machine
end

section
/-! PROOFS. The words of the spec, decoded. -/

namespace Sys2Proof.Machine

/-- Settles O4: the decoder, evaluated at the words the spec gives. -/
theorem decodeExamples : Obligations.DecodeExamples := by
  unfold Obligations.DecodeExamples
  decide

end Sys2Proof.Machine
end

section
/-!
PROOFS. 93_implementation_defined.md U1, U2: an instruction UNPREDICTABLE in itself. Every row has the shape of a guard, which looks for
a defect of the row before it runs the row's body.
-/

namespace Sys2Proof.Machine

/-- A defect that a list of checks finds is the name of one of them. -/
theorem mem_of_firstDefect {d : Defect} : ∀ {l : List (Bool × Defect)}, firstDefect l = some d → d ∈ l.map Prod.snd
  | [], h => nomatch h
  | (true, _) :: _, h => by cases h; exact List.mem_cons_self
  | (false, _) :: _, h => List.mem_cons_of_mem _ (mem_of_firstDefect h)

/-- No check of a row is about the condition: that one stands in `Instr.defect`. -/
theorem checks_ne_condNever (i : Instr) : (Instr.checks i).all (·.2 != .condNever) = true := by
  cases i <;> rfl

theorem firstDefect_checks_ne_condNever {i : Instr} {d : Defect} (h : firstDefect (Instr.checks i) = some d) : d ≠ .condNever := by
  obtain ⟨x, hx, rfl⟩ := List.mem_map.mp (mem_of_firstDefect h)
  simpa using List.all_eq_true.mp (checks_ne_condNever i) x hx

/-- An ARM instruction with condition 0b1111 is refused before anything else is looked at (R173). -/
theorem armGuard_never {i : Instr} {s : State} {body : State → Result} :
    armGuard .nv i s body = .refused (.unpredictable .condNever) := if_pos rfl

/-- An ARM instruction whose condition passes is refused by the first check of its row that fails. -/
theorem armGuard_defect {c : Cond} {i : Instr} {s : State} {body : State → Result} {d : Defect} (hn : c ≠ .nv)
    (hp : conditionPassed c s.cpsr = true) (hd : firstDefect (Instr.checks i) = some d) :
    armGuard c i s body = .refused (.unpredictable d) := by
  simp [armGuard, hn, hp, hd]

/-- A Thumb instruction is refused by the first check of its row that fails. -/
theorem thumbGuard_defect {i : Instr} {s : State} {body : State → Result} {d : Defect}
    (hd : firstDefect (Instr.checks i) = some d) : thumbGuard i s body = .refused (.unpredictable d) := by
  simp [thumbGuard, hd]

/-- A Thumb row with a check that fails is refused by it. Nine Thumb rows have checks (R222); any other row has a condition, against
`hc`, or no check, against `hd`. -/
theorem exec_thumb_defect {i : Instr} {s : State} {d : Defect} (hc : Instr.cond i = none)
    (hd : firstDefect (Instr.checks i) = some d) : exec i s = .refused (.unpredictable d) := by
  cases i
  case tMul | tAddHi | tCmpHi | tMovHi | tBx | tPush | tPop | tStmia | tLdmia => unfold exec; exact thumbGuard_defect hd
  all_goals first | exact absurd hc (Option.some_ne_none _) | exact absurd hd.symm (Option.some_ne_none d)

/-- Settles O12: a Thumb row; an ARM row with condition 0b1111; an ARM row with another, whose defect is then one of its checks and
whose condition passes. -/
theorem unpredictableRefused : Obligations.UnpredictableRefused := by
  unfold Obligations.UnpredictableRefused
  intro i d s hd hpass
  cases hc : Instr.cond i with
  | none => exact exec_thumb_defect hc (by simpa [Instr.defect, hc] using hd)
  | some c =>
    obtain ⟨body, hbody⟩ := exec_eq_armGuard s hc
    rw [hbody]
    by_cases hn : c = .nv
    · subst hn
      obtain rfl : Defect.condNever = d := by simpa [Instr.defect, hc] using hd
      exact armGuard_never
    · have hchecks : firstDefect (Instr.checks i) = some d := by simpa [Instr.defect, hc, hn] using hd
      have hp := hpass.resolve_left (firstDefect_checks_ne_condNever hchecks)
      exact armGuard_defect hn (by simpa [passes, hc] using hp) hchecks

end Sys2Proof.Machine
end

section
/-!
PROOFS. 30_encoding.md: the fields of an instruction word. The encoder writes a word as fields side by side and the decoder reads
fields and bits of a word; `HasBits` says of a word that a field stands at a place in it, and turns each into the other.
-/

namespace Sys2Proof

/-- The bits `x` stand in `w` from bit `lo` up. -/
def HasBits {k n : Nat} (w : BitVec k) (lo : Nat) (x : BitVec n) : Prop := w.extractLsb' lo n = x

/-- A word is `x` when `x` stands at its bit 0 over its whole width. -/
theorem eq_iff_hasBits {n : Nat} {x w : BitVec n} : x = w ↔ HasBits w 0 x := by
  rw [HasBits, BitVec.extractLsb'_eq_self, eq_comm]

/-- Fields side by side: each stands at its own place. -/
theorem hasBits_append {k n m lo : Nat} {w : BitVec k} {x : BitVec n} {y : BitVec m} :
    HasBits w lo (x ++ y) ↔ HasBits w (lo + m) x ∧ HasBits w lo y := by
  unfold HasBits
  rw [← BitVec.extractLsb'_append_extractLsb'_eq_extractLsb' (rfl : lo + m = lo + m)]
  constructor
  · intro h
    exact ⟨by simpa only [BitVec.extractLsb'_append_eq_left] using congrArg (BitVec.extractLsb' m n) h,
      by simpa only [BitVec.extractLsb'_append_eq_right] using congrArg (BitVec.extractLsb' 0 m) h⟩
  · rintro ⟨rfl, rfl⟩
    rfl

/-- The word of a code is what the fields of its encoding spell. -/
theorem arm_eq_iff {x w : Word} : Code.arm x = Code.arm w ↔ HasBits w 0 x := by
  rw [Code.arm.injEq, eq_iff_hasBits]

theorem thumb_eq_iff {x h : Half} : Code.thumb x = Code.thumb h ↔ HasBits h 0 x := by
  rw [Code.thumb.injEq, eq_iff_hasBits]

/-! ## Fields read as numbers and as constants -/

/-- The lowest bit of a field apart from the rest of it, as a number. -/
theorem toNat_extractLsb'_succ {k n lo : Nat} {w : BitVec k} :
    (w.extractLsb' lo (n + 1)).toNat = (w.getLsbD lo).toNat + 2 * (w.extractLsb' (lo + 1) n).toNat := by
  simp only [BitVec.extractLsb'_toNat, Nat.pow_succ', Nat.mod_mul, BitVec.getLsbD, Nat.testBit, Nat.shiftRight_add, Nat.shiftRight_one]
  rw [Nat.one_and_eq_mod_two]
  rcases Nat.mod_two_eq_zero_or_one (w.toNat >>> lo) with h | h <;> simp [h]

/-- A field is a constant when its lowest bit and the rest of it are. -/
@[simp] theorem extractLsb'_succ_eq_ofNat {k n lo v : Nat} {w : BitVec k} :
    w.extractLsb' lo (n + 1) = BitVec.ofNat (n + 1) v ↔
      w.getLsbD lo = (v % 2 == 1) ∧ w.extractLsb' (lo + 1) n = BitVec.ofNat n (v / 2) := by
  rw [← BitVec.toNat_inj, ← BitVec.toNat_inj, toNat_extractLsb'_succ, BitVec.toNat_ofNat, BitVec.toNat_ofNat, Nat.pow_succ', Nat.mod_mul]
  cases w.getLsbD lo <;> rcases Nat.mod_two_eq_zero_or_one v with h | h <;> simp [h] <;> omega

@[simp] theorem extractLsb'_zero_eq {k lo : Nat} {w : BitVec k} {x : BitVec 0} : w.extractLsb' lo 0 = x :=
  Subsingleton.elim _ _

/-! ## The coded fields: one bit, a condition, a shift type, an index form -/

@[simp] theorem extractLsb'_eq_bit {k lo : Nat} {w : BitVec k} {b : Bool} : w.extractLsb' lo 1 = bit b ↔ w.getLsbD lo = b := by
  cases b
  · exact extractLsb'_succ_eq_ofNat.trans (and_iff_left extractLsb'_zero_eq)
  · exact extractLsb'_succ_eq_ofNat.trans (and_iff_left extractLsb'_zero_eq)

@[simp] theorem Cond.ofBits_bits (c : Cond) : Cond.ofBits c.bits = c := by cases c <;> rfl

@[simp] theorem Cond.bits_ofBits : ∀ b : BitVec 4, (Cond.ofBits b).bits = b := by decide

@[simp] theorem ShiftType.ofBits_bits (t : ShiftType) : ShiftType.ofBits t.bits = t := by cases t <;> rfl

@[simp] theorem ShiftType.bits_ofBits : ∀ b : BitVec 2, (ShiftType.ofBits b).bits = b := by decide

theorem Cond.ofBits_eq_al : ∀ {b : BitVec 4}, Cond.ofBits b = .al ↔ b = 0b1110#4 := by decide

theorem Cond.ofBits_eq_nv : ∀ {b : BitVec 4}, Cond.ofBits b = .nv ↔ b = 0b1111#4 := by decide

@[simp] theorem extractLsb'_eq_condBits {k lo : Nat} {w : BitVec k} {c : Cond} :
    w.extractLsb' lo 4 = c.bits ↔ Cond.ofBits (w.extractLsb' lo 4) = c :=
  ⟨fun h => (congrArg Cond.ofBits h).trans c.ofBits_bits, fun h => h ▸ (Cond.bits_ofBits _).symm⟩

@[simp] theorem extractLsb'_eq_shiftTypeBits {k lo : Nat} {w : BitVec k} {t : ShiftType} :
    w.extractLsb' lo 2 = t.bits ↔ ShiftType.ofBits (w.extractLsb' lo 2) = t :=
  ⟨fun h => (congrArg ShiftType.ofBits h).trans t.ofBits_bits, fun h => h ▸ (ShiftType.bits_ofBits _).symm⟩

/-- P of an index form, as one bit. -/
@[simp] theorem Index.p_eq_bit (x : Index) : x.p = bit (x != .post) := by cases x <;> rfl

/-- W of an index form, as one bit. -/
@[simp] theorem Index.w_eq_bit (x : Index) : x.w = bit (x == .pre) := by cases x <;> rfl

/-- P and W give the index form back. -/
@[simp] theorem Index.ofBits_of (x : Index) : Index.ofBits (x != .post) (x == .pre) = x := by cases x <;> rfl

/-- P = 0 with W = 1 is no index form (R342). -/
@[simp] theorem Index.not_user (x : Index) : (!(x != .post) && x == .pre) = false := by cases x <;> rfl

/-! ## The layouts of Thumb halfwords behind bits 15:11 -/

section
variable {h : Half} {g : BitVec 5}

/-- An offset of five bits and two registers. -/
theorem hasBits_offset5 {n : BitVec 5} {rb rd : LowReg} : HasBits h 0 (g ++ n ++ rb ++ rd) ↔
    tfld h 11 5 = g ∧ tfld h 6 5 = n ∧ tfld h 3 3 = rb ∧ tfld h 0 3 = rd := by
  simp only [hasBits_append, and_assoc]
  rfl

/-- A register and an immediate of eight bits. -/
theorem hasBits_imm8 {rd : LowReg} {n : BitVec 8} : HasBits h 0 (g ++ rd ++ n) ↔
    tfld h 11 5 = g ∧ tfld h 8 3 = rd ∧ tfld h 0 8 = n := by
  simp only [hasBits_append, and_assoc]
  rfl

/-- An offset of eleven bits. -/
theorem hasBits_offset11 {n : BitVec 11} : HasBits h 0 (g ++ n) ↔ tfld h 11 5 = g ∧ tfld h 0 11 = n := by
  simp only [hasBits_append]
  rfl

end

end Sys2Proof
end

section
/-!
PROOFS. 30_encoding.md R190 to R194, R220: the rows that do not take every value of their fields, since rows above them take some.
-/

namespace Sys2Proof

section
variable {c : Cond} {body : BitVec 28}

theorem encodable_undArith : Instr.encodable (.undArith c body) =
    (body.extractLsb' 22 6 == 0b000001#6 && body.extractLsb' 4 4 == 0b1001#4) := rfl

theorem encodable_undLsA : Instr.encodable (.undLsA c body) =
    (body.extractLsb' 24 4 == 0b0001#4 && body.extractLsb' 4 4 == 0b1001#4 &&
      !(!body.getLsbD 23 && body.extractLsb' 20 2 == 0b00#2)) := rfl

theorem encodable_undLsB : Instr.encodable (.undLsB c body) =
    (body.extractLsb' 25 3 == 0b000#3 && !body.getLsbD 20 && body.extractLsb' 6 2 == 0b11#2 && body.getLsbD 4) := rfl

theorem encodable_undCtlReg : Instr.encodable (.undCtlReg c body) =
    (body.extractLsb' 23 5 == 0b00010#5 && !body.getLsbD 20 && !(body.getLsbD 7 && body.getLsbD 4) &&
      body.extractLsb' 4 4 != 0b0000#4 && !(body.extractLsb' 4 4 == 0b0001#4 && body.extractLsb' 21 2 == 0b01#2)) := rfl

theorem encodable_undCtlImm : Instr.encodable (.undCtlImm c body) =
    (body.extractLsb' 23 5 == 0b00110#5 && body.extractLsb' 20 2 == 0b00#2) := rfl

theorem encodable_undSpace : Instr.encodable (.undSpace c body) = (body.extractLsb' 25 3 == 0b011#3 && body.getLsbD 4) := rfl

theorem encodable_undCop : Instr.encodable (.undCop c body) = (body.extractLsb' 23 5 == 0b11000#5 && !body.getLsbD 21) := rfl

theorem encodable_stc {m : CopMem} : Instr.encodable (.stc c m) = (m.p || m.u || m.w) := rfl

theorem encodable_ldc {m : CopMem} : Instr.encodable (.ldc c m) = (m.p || m.u || m.w) := rfl

end

theorem encodable_tUnd1011 {body : BitVec 12} : Instr.encodable (.tUnd1011 body) =
    (body.extractLsb' 8 4 != 0b0000#4 && body.extractLsb' 9 2 != 0b10#2) := rfl

theorem encodable_tBCond {c : Cond} {n : BitVec 8} : Instr.encodable (.tBCond c n) = (c != .al && c != .nv) := rfl

end Sys2Proof
end

section
/-!
PROOFS. 30_encoding.md R175, R176, R203: data processing. The sixteen operations of one operand form share one layout, in which the
operation is a field of its own; what is said of the layout holds for the sixteen rows.
-/

namespace Sys2Proof

/-- A field of four bits is one of the sixteen operations, here by their ARM names (R175). -/
theorem opcode_cases {motive : BitVec 4 → Prop} (and : motive 0#4) (eor : motive 1#4) (sub : motive 2#4) (rsb : motive 3#4)
    (add : motive 4#4) (adc : motive 5#4) (sbc : motive 6#4) (rsc : motive 7#4) (tst : motive 8#4) (teq : motive 9#4)
    (cmp : motive 10#4) (cmn : motive 11#4) (orr : motive 12#4) (mov : motive 13#4) (bic : motive 14#4) (mvn : motive 15#4)
    (op : BitVec 4) : motive op := by
  obtain ⟨k, hk⟩ := op
  interval_cases k <;> assumption

/-- The comparisons are the operations 10xx: their rows have no S, since S = 0 is the control extension space (R182). -/
def ComparesOnlyWithS (op : BitVec 4) (s : Bool) : Prop := (op.extractLsb' 2 2 != 0b10#2 || s) = true

theorem comparesOnlyWithS_fld {w : Word} :
    ComparesOnlyWithS (fld w 21 4) (w.getLsbD 20) ↔ ¬(fld w 23 2 = 0b10#2 ∧ w.getLsbD 20 = false) := by
  cases w.getLsbD 20 <;> simp [ComparesOnlyWithS, fld]

/-- S = 1 behind an operation of a comparison is one constant with it. -/
theorem append_opcode_s (x : BitVec 4) (y : BitVec 7) (z : BitVec 1) : x ++ y ++ z = x ++ (y ++ z) := by
  rw [BitVec.append_assoc]
  rfl

/-- The rows with the immediate shifts, by operation. -/
def dpShiftImmRow (op : BitVec 4) (c : Cond) (s : Bool) (rn rd : Reg) (o : ShiftImm) : Instr :=
  match op.toNat with
  | 0 => .andShiftImm c s rn rd o
  | 1 => .eorShiftImm c s rn rd o
  | 2 => .subShiftImm c s rn rd o
  | 3 => .rsbShiftImm c s rn rd o
  | 4 => .addShiftImm c s rn rd o
  | 5 => .adcShiftImm c s rn rd o
  | 6 => .sbcShiftImm c s rn rd o
  | 7 => .rscShiftImm c s rn rd o
  | 8 => .tstShiftImm c rn rd o
  | 9 => .teqShiftImm c rn rd o
  | 10 => .cmpShiftImm c rn rd o
  | 11 => .cmnShiftImm c rn rd o
  | 12 => .orrShiftImm c s rn rd o
  | 13 => .movShiftImm c s rn rd o
  | 14 => .bicShiftImm c s rn rd o
  | _ => .mvnShiftImm c s rn rd o

theorem decodeDpShiftImm_eq (c : Cond) (w : Word) :
    decodeDpShiftImm c w = dpShiftImmRow (fld w 21 4) c (w.getLsbD 20) (fld w 16 4) (fld w 12 4) (shiftImmOf w) := rfl

theorem dpShiftImmRow_layout {op : BitVec 4} (c : Cond) {s : Bool} (rn rd : Reg) (o : ShiftImm) (hs : ComparesOnlyWithS op s) :
    Machine.Instr.cond (dpShiftImmRow op c s rn rd o) = some c ∧ Instr.encodable (dpShiftImmRow op c s rn rd o) = true ∧
    encode (dpShiftImmRow op c s rn rd o) =
      .arm (c.bits ++ (0b000#3 ++ op) ++ bit s ++ rn ++ rd ++ o.amount ++ o.ty.bits ++ 0b0#1 ++ o.rm) := by
  cases op using opcode_cases with
  | tst | teq | cmp | cmn =>
    obtain rfl : s = true := hs
    exact ⟨rfl, rfl, by rw [append_opcode_s]; rfl⟩
  | _ => exact ⟨rfl, rfl, rfl⟩

/-- The rows with the register shifts, by operation. -/
def dpShiftRegRow (op : BitVec 4) (c : Cond) (s : Bool) (rn rd : Reg) (o : ShiftReg) : Instr :=
  match op.toNat with
  | 0 => .andShiftReg c s rn rd o
  | 1 => .eorShiftReg c s rn rd o
  | 2 => .subShiftReg c s rn rd o
  | 3 => .rsbShiftReg c s rn rd o
  | 4 => .addShiftReg c s rn rd o
  | 5 => .adcShiftReg c s rn rd o
  | 6 => .sbcShiftReg c s rn rd o
  | 7 => .rscShiftReg c s rn rd o
  | 8 => .tstShiftReg c rn rd o
  | 9 => .teqShiftReg c rn rd o
  | 10 => .cmpShiftReg c rn rd o
  | 11 => .cmnShiftReg c rn rd o
  | 12 => .orrShiftReg c s rn rd o
  | 13 => .movShiftReg c s rn rd o
  | 14 => .bicShiftReg c s rn rd o
  | _ => .mvnShiftReg c s rn rd o

theorem decodeDpShiftReg_eq (c : Cond) (w : Word) :
    decodeDpShiftReg c w = dpShiftRegRow (fld w 21 4) c (w.getLsbD 20) (fld w 16 4) (fld w 12 4) (shiftRegOf w) := rfl

theorem dpShiftRegRow_layout {op : BitVec 4} (c : Cond) {s : Bool} (rn rd : Reg) (o : ShiftReg) (hs : ComparesOnlyWithS op s) :
    Machine.Instr.cond (dpShiftRegRow op c s rn rd o) = some c ∧ Instr.encodable (dpShiftRegRow op c s rn rd o) = true ∧
    encode (dpShiftRegRow op c s rn rd o) =
      .arm (c.bits ++ (0b000#3 ++ op) ++ bit s ++ rn ++ rd ++ o.rs ++ 0b0#1 ++ o.ty.bits ++ 0b1#1 ++ o.rm) := by
  cases op using opcode_cases with
  | tst | teq | cmp | cmn =>
    obtain rfl : s = true := hs
    exact ⟨rfl, rfl, by rw [append_opcode_s]; rfl⟩
  | _ => exact ⟨rfl, rfl, rfl⟩

/-- The rows with an immediate operand, by operation. -/
def dpImmRow (op : BitVec 4) (c : Cond) (s : Bool) (rn rd : Reg) (o : RotImm) : Instr :=
  match op.toNat with
  | 0 => .andImm c s rn rd o
  | 1 => .eorImm c s rn rd o
  | 2 => .subImm c s rn rd o
  | 3 => .rsbImm c s rn rd o
  | 4 => .addImm c s rn rd o
  | 5 => .adcImm c s rn rd o
  | 6 => .sbcImm c s rn rd o
  | 7 => .rscImm c s rn rd o
  | 8 => .tstImm c rn rd o
  | 9 => .teqImm c rn rd o
  | 10 => .cmpImm c rn rd o
  | 11 => .cmnImm c rn rd o
  | 12 => .orrImm c s rn rd o
  | 13 => .movImm c s rn rd o
  | 14 => .bicImm c s rn rd o
  | _ => .mvnImm c s rn rd o

theorem decodeDpImm_eq (c : Cond) (w : Word) :
    decodeDpImm c w = dpImmRow (fld w 21 4) c (w.getLsbD 20) (fld w 16 4) (fld w 12 4) (rotImmOf w) := rfl

theorem dpImmRow_layout {op : BitVec 4} (c : Cond) {s : Bool} (rn rd : Reg) (o : RotImm) (hs : ComparesOnlyWithS op s) :
    Machine.Instr.cond (dpImmRow op c s rn rd o) = some c ∧ Instr.encodable (dpImmRow op c s rn rd o) = true ∧
    encode (dpImmRow op c s rn rd o) =
      .arm (c.bits ++ (0b001#3 ++ op) ++ bit s ++ rn ++ rd ++ o.rot ++ o.imm8) := by
  cases op using opcode_cases with
  | tst | teq | cmp | cmn =>
    obtain rfl : s = true := hs
    exact ⟨rfl, rfl, by rw [append_opcode_s]; rfl⟩
  | _ => exact ⟨rfl, rfl, rfl⟩

/-- The rows of Thumb format 4, by operation. -/
def thumbAluRow (op : BitVec 4) (rs rd : LowReg) : Instr :=
  match op.toNat with
  | 0 => .tAnd rs rd
  | 1 => .tEor rs rd
  | 2 => .tLsl rs rd
  | 3 => .tLsr rs rd
  | 4 => .tAsr rs rd
  | 5 => .tAdc rs rd
  | 6 => .tSbc rs rd
  | 7 => .tRor rs rd
  | 8 => .tTst rs rd
  | 9 => .tNeg rs rd
  | 10 => .tCmp rs rd
  | 11 => .tCmn rs rd
  | 12 => .tOrr rs rd
  | 13 => .tMul rs rd
  | 14 => .tBic rs rd
  | _ => .tMvn rs rd

theorem decodeThumbAlu_eq (h : Half) : decodeThumbAlu h = thumbAluRow (tfld h 6 4) (tfld h 3 3) (tfld h 0 3) := rfl

theorem thumbAluRow_layout (op : BitVec 4) (rs rd : LowReg) :
    Machine.Instr.cond (thumbAluRow op rs rd) = none ∧ Instr.encodable (thumbAluRow op rs rd) = true ∧
    encode (thumbAluRow op rs rd) = .thumb ((0b010000#6 ++ op) ++ rs ++ rd) := by
  cases op using opcode_cases with
  | _ => exact ⟨rfl, rfl, rfl⟩

end Sys2Proof
end

section
/-!
PROOFS. 30_encoding.md R175 to R222: what is encoded is decoded again. The fields of an encoding stand where `hasBits_append` says, so each
branch that the decoder takes on the word and each field that it reads there is known. One lemma per part of the decoder, over the rows of
that part.
-/

namespace Sys2Proof

/-- Decoding the encoding gives the instruction back, in the state whose row it is (R170, R172). -/
def RoundTrips (i : Instr) : Prop := Instr.encodable i = true → match Machine.Instr.cond i with
  | some _ => ∃ w, encode i = .arm w ∧ decodeArm w = i
  | none => ∃ h, encode i = .thumb h ∧ decodeThumb h = i

/-- An ARM row is decoded from any word in which the fields of its encoding stand. -/
theorem roundTrips_arm {i : Instr} {c : Cond} {x : Word} (hc : Machine.Instr.cond i = some c) (hi : encode i = .arm x)
    (h : ∀ w, Instr.encodable i = true → HasBits w 0 x → decodeArm w = i) : RoundTrips i := fun he => by
  rw [hc]
  exact ⟨x, hi, h x he (eq_iff_hasBits.mp rfl)⟩

/-- A Thumb row is decoded from any halfword in which the fields of its encoding stand. -/
theorem roundTrips_thumb {i : Instr} {x : Half} (hc : Machine.Instr.cond i = none) (hi : encode i = .thumb x)
    (h : ∀ w, Instr.encodable i = true → HasBits w 0 x → decodeThumb w = i) : RoundTrips i := fun he => by
  rw [hc]
  exact ⟨x, hi, h x he (eq_iff_hasBits.mp rfl)⟩

/-! ## ARM: group 000 -/

/-- The multiplies (R177, R178). -/
theorem roundTrips_multiply :
    (∀ c s a b rs rm, RoundTrips (.mul c s a b rs rm)) ∧
    (∀ c s a b rs rm, RoundTrips (.mla c s a b rs rm)) ∧
    (∀ c s a b rs rm, RoundTrips (.umull c s a b rs rm)) ∧
    (∀ c s a b rs rm, RoundTrips (.umlal c s a b rs rm)) ∧
    (∀ c s a b rs rm, RoundTrips (.smull c s a b rs rm)) ∧
    (∀ c s a b rs rm, RoundTrips (.smlal c s a b rs rm)) := by
  and_intros
  all_goals
    intros
    refine roundTrips_arm rfl rfl fun w _ hx => ?_
    simp only [hasBits_append] at hx
    simp [HasBits] at hx
    simp [decodeArm, decodeGroup0, decodeMul, fld, toNat_extractLsb'_succ, hx, -BitVec.extractLsb'_toNat]

/-- The swaps (R179). -/
theorem roundTrips_swap :
    (∀ c rn rd sbz rm, RoundTrips (.swp c rn rd sbz rm)) ∧
    (∀ c rn rd sbz rm, RoundTrips (.swpb c rn rd sbz rm)) := by
  and_intros
  all_goals
    intros
    refine roundTrips_arm rfl rfl fun w _ hx => ?_
    simp only [hasBits_append] at hx
    simp [HasBits] at hx
    simp [decodeArm, decodeGroup0, decodeSwap, fld, toNat_extractLsb'_succ, hx, -BitVec.extractLsb'_toNat]

/-- The halfword and signed transfers (R181). -/
theorem roundTrips_mode3 :
    (∀ c m, RoundTrips (.strh c m)) ∧
    (∀ c m, RoundTrips (.ldrh c m)) ∧
    (∀ c m, RoundTrips (.ldrsb c m)) ∧
    (∀ c m, RoundTrips (.ldrsh c m)) := by
  and_intros
  all_goals
    intros
    refine roundTrips_arm rfl rfl fun w _ hx => ?_
    simp only [hasBits_append] at hx
    simp [HasBits] at hx
    simp [decodeArm, decodeGroup0, decodeMode3, mode3Of, fld, toNat_extractLsb'_succ, hx, -BitVec.extractLsb'_toNat]

/-- MRS, MSR from a register and BX (R180, R182). -/
theorem roundTrips_control :
    (∀ c r a b d e, RoundTrips (.mrs c r a b d e)) ∧
    (∀ c r a b d e, RoundTrips (.msrReg c r a b d e)) ∧
    (∀ c sbo a, RoundTrips (.bx c sbo a)) := by
  and_intros
  all_goals
    intros
    refine roundTrips_arm rfl rfl fun w _ hx => ?_
    simp only [hasBits_append] at hx
    simp [HasBits] at hx
    simp [decodeArm, decodeGroup0, decodeControl, fld, toNat_extractLsb'_succ, hx, -BitVec.extractLsb'_toNat]

/-- The words of groups 000 and 001 (R196). -/
theorem decodeArm_of_group0 {w : Word} (hg : fld w 25 3 = 0b000#3) : decodeArm w = decodeGroup0 (Cond.ofBits (fld w 28 4)) w := by
  rw [decodeArm, hg]
  rfl

theorem decodeArm_of_group1 {w : Word} (hg : fld w 25 3 = 0b001#3) : decodeArm w = decodeGroup1 (Cond.ofBits (fld w 28 4)) w := by
  rw [decodeArm, hg]
  rfl

/-- Data processing with an immediate shift (R175, R176). -/
theorem roundTrips_dpShiftImmRow (op : BitVec 4) (c : Cond) (s : Bool) (rn rd : Reg) (o : ShiftImm) (hs : ComparesOnlyWithS op s) :
    RoundTrips (dpShiftImmRow op c s rn rd o) := by
  obtain ⟨hc, _, henc⟩ := dpShiftImmRow_layout c rn rd o hs
  refine roundTrips_arm hc henc fun w _ hx => ?_
  simp only [hasBits_append] at hx
  simp [HasBits] at hx
  obtain ⟨⟨⟨⟨⟨⟨⟨⟨rfl, hg, rfl⟩, rfl⟩, rfl⟩, rfl⟩, hamount⟩, hty⟩, h4⟩, hrm⟩ := hx
  have hdec : decodeArm w = decodeDpShiftImm (Cond.ofBits (fld w 28 4)) w := by
    rw [decodeArm_of_group0 (by simp [fld, hg]), decodeGroup0, if_neg (by simp [h4]), if_neg (comparesOnlyWithS_fld.mp hs), if_neg (by simp [h4])]
  simp [hdec, decodeDpShiftImm_eq, shiftImmOf, fld, hamount, hty, hrm]

/-- Data processing with a register shift (R175, R176). -/
theorem roundTrips_dpShiftRegRow (op : BitVec 4) (c : Cond) (s : Bool) (rn rd : Reg) (o : ShiftReg) (hs : ComparesOnlyWithS op s) :
    RoundTrips (dpShiftRegRow op c s rn rd o) := by
  obtain ⟨hc, _, henc⟩ := dpShiftRegRow_layout c rn rd o hs
  refine roundTrips_arm hc henc fun w _ hx => ?_
  simp only [hasBits_append] at hx
  simp [HasBits] at hx
  obtain ⟨⟨⟨⟨⟨⟨⟨⟨⟨rfl, hg, rfl⟩, rfl⟩, rfl⟩, rfl⟩, hrs⟩, h7⟩, hty⟩, h4⟩, hrm⟩ := hx
  have hdec : decodeArm w = decodeDpShiftReg (Cond.ofBits (fld w 28 4)) w := by
    rw [decodeArm_of_group0 (by simp [fld, hg]), decodeGroup0, if_neg (by simp [h7]), if_neg (comparesOnlyWithS_fld.mp hs), if_pos (by simp [h4])]
  simp [hdec, decodeDpShiftReg_eq, shiftRegOf, fld, hrs, hty, hrm]

/-! ## ARM: the other groups -/

/-- Data processing with an immediate operand (R175, R176). -/
theorem roundTrips_dpImmRow (op : BitVec 4) (c : Cond) (s : Bool) (rn rd : Reg) (o : RotImm) (hs : ComparesOnlyWithS op s) :
    RoundTrips (dpImmRow op c s rn rd o) := by
  obtain ⟨hc, _, henc⟩ := dpImmRow_layout c rn rd o hs
  refine roundTrips_arm hc henc fun w _ hx => ?_
  simp only [hasBits_append] at hx
  simp [HasBits] at hx
  obtain ⟨⟨⟨⟨⟨⟨rfl, hg, rfl⟩, rfl⟩, rfl⟩, rfl⟩, hrot⟩, himm⟩ := hx
  have hdec : decodeArm w = decodeDpImm (Cond.ofBits (fld w 28 4)) w := by
    rw [decodeArm_of_group1 (by simp [fld, hg]), decodeGroup1, if_neg (comparesOnlyWithS_fld.mp hs)]
  simp [hdec, decodeDpImm_eq, rotImmOf, fld, hrot, himm]

/-- MSR from an immediate (R182). -/
theorem roundTrips_msrImm (c : Cond) (r : Bool) (mask sbo : BitVec 4) (o : RotImm) : RoundTrips (.msrImm c r mask sbo o) := by
  refine roundTrips_arm rfl rfl fun w _ hx => ?_
  simp only [hasBits_append] at hx
  simp [HasBits] at hx
  simp [decodeArm, decodeGroup1, rotImmOf, fld, toNat_extractLsb'_succ, hx, -BitVec.extractLsb'_toNat]

/-- The user-access word and byte transfers (R183). -/
theorem roundTrips_singleUser :
    (∀ c u rn rd imm, RoundTrips (.strtImm c u rn rd imm)) ∧
    (∀ c u rn rd imm, RoundTrips (.ldrtImm c u rn rd imm)) ∧
    (∀ c u rn rd imm, RoundTrips (.strbtImm c u rn rd imm)) ∧
    (∀ c u rn rd imm, RoundTrips (.ldrbtImm c u rn rd imm)) ∧
    (∀ c u rn rd o, RoundTrips (.strtReg c u rn rd o)) ∧
    (∀ c u rn rd o, RoundTrips (.ldrtReg c u rn rd o)) ∧
    (∀ c u rn rd o, RoundTrips (.strbtReg c u rn rd o)) ∧
    (∀ c u rn rd o, RoundTrips (.ldrbtReg c u rn rd o)) := by
  and_intros
  all_goals
    intros
    refine roundTrips_arm rfl rfl fun w _ hx => ?_
    simp only [hasBits_append] at hx
    simp [HasBits] at hx
    simp [decodeArm, decodeSingle, shiftImmOf, fld, toNat_extractLsb'_succ, hx, -BitVec.extractLsb'_toNat]

/-- The plain word and byte transfers (R183). -/
theorem roundTrips_single :
    (∀ c a imm, RoundTrips (.strImm c a imm)) ∧
    (∀ c a imm, RoundTrips (.ldrImm c a imm)) ∧
    (∀ c a imm, RoundTrips (.strbImm c a imm)) ∧
    (∀ c a imm, RoundTrips (.ldrbImm c a imm)) ∧
    (∀ c a o, RoundTrips (.strReg c a o)) ∧
    (∀ c a o, RoundTrips (.ldrReg c a o)) ∧
    (∀ c a o, RoundTrips (.strbReg c a o)) ∧
    (∀ c a o, RoundTrips (.ldrbReg c a o)) := by
  and_intros
  all_goals
    intros
    refine roundTrips_arm rfl rfl fun w _ hx => ?_
    simp only [hasBits_append] at hx
    simp [HasBits] at hx
    simp [decodeArm, decodeSingle, shiftImmOf, mode2Of, fld, toNat_extractLsb'_succ, hx, -BitVec.extractLsb'_toNat]

/-- The block transfers (R184). -/
theorem roundTrips_block :
    (∀ c p u w rn l, RoundTrips (.stm1 c p u w rn l)) ∧
    (∀ c p u w rn l, RoundTrips (.ldm1 c p u w rn l)) ∧
    (∀ c p u w rn l, RoundTrips (.stm2 c p u w rn l)) ∧
    (∀ c p u w rn k, RoundTrips (.ldm2 c p u w rn k)) ∧
    (∀ c p u w rn k, RoundTrips (.ldm3 c p u w rn k)) := by
  and_intros
  all_goals
    intros
    refine roundTrips_arm rfl rfl fun w _ hx => ?_
    simp only [hasBits_append] at hx
    simp [HasBits] at hx
    simp [decodeArm, decodeBlock, fld, toNat_extractLsb'_succ, hx, -BitVec.extractLsb'_toNat]

/-- The branches (R185). -/
theorem roundTrips_branch :
    (∀ c off, RoundTrips (.b c off)) ∧
    (∀ c off, RoundTrips (.bl c off)) := by
  and_intros
  all_goals
    intros
    refine roundTrips_arm rfl rfl fun w _ hx => ?_
    simp only [hasBits_append] at hx
    simp [HasBits] at hx
    simp [decodeArm, fld, toNat_extractLsb'_succ, hx, -BitVec.extractLsb'_toNat]

/-- The coprocessor operations and SWI (R187 to R189). -/
theorem roundTrips_group7 :
    (∀ c d, RoundTrips (.cdp c d)) ∧
    (∀ c o, RoundTrips (.mcr c o)) ∧
    (∀ c o, RoundTrips (.mrc c o)) ∧
    (∀ c imm, RoundTrips (.swi c imm)) := by
  and_intros
  all_goals
    intros
    refine roundTrips_arm rfl rfl fun w _ hx => ?_
    simp only [hasBits_append] at hx
    simp [HasBits] at hx
    simp [decodeArm, decodeGroup7, copDataOf, copRegOf, fld, toNat_extractLsb'_succ, hx, -BitVec.extractLsb'_toNat]

/-- LDC and STC (R186): one of P, U and W is set, or the word is in the UNDEFINED row ahead of them (R194). -/
theorem roundTrips_copMem : (∀ c m, RoundTrips (.stc c m)) ∧ (∀ c m, RoundTrips (.ldc c m)) := by
  and_intros
  all_goals
    intro c m
    refine roundTrips_arm rfl rfl fun w he hx => ?_
    simp [encodable_stc, encodable_ldc] at he
    simp only [hasBits_append] at hx
    simp [HasBits] at hx
    simp [decodeArm, decodeGroup6, copMemOf, fld, toNat_extractLsb'_succ, hx, -BitVec.extractLsb'_toNat]
    grind

/-- The UNDEFINED rows (R190 to R194): the body of the row is all of the word but its condition, and is in no row above. -/
theorem roundTrips_undefined (c : Cond) (body : BitVec 28) :
    RoundTrips (.undArith c body) ∧ RoundTrips (.undLsA c body) ∧ RoundTrips (.undLsB c body) ∧ RoundTrips (.undCtlReg c body) ∧
    RoundTrips (.undCtlImm c body) ∧ RoundTrips (.undSpace c body) ∧ RoundTrips (.undCop c body) := by
  refine ⟨?_, ?undLsA, ?_, ?undCtlReg, ?_, ?_, ?_⟩
  all_goals
    refine roundTrips_arm rfl rfl fun w he hx => ?_
    simp only [hasBits_append] at hx
    simp [HasBits] at hx
    obtain ⟨rfl, rfl⟩ := hx
    simp [encodable_undArith, encodable_undLsA, encodable_undLsB, encodable_undCtlReg, encodable_undCtlImm, encodable_undSpace,
      encodable_undCop] at he
    simp [decodeArm, decodeGroup0, decodeGroup1, decodeGroup6, decodeMul, decodeSwap, decodeMode3, decodeControl, fld,
      toNat_extractLsb'_succ, he, -BitVec.extractLsb'_toNat]
  case undLsA =>
    intro h23 h21 h20
    simp [h23, h21, h20] at he
  case undCtlReg => grind

/-! ## Thumb: the decoder by bits 15:11 -/

section
variable {h : Half}

theorem decodeThumb_format2 (hg : tfld h 11 5 = 0b00011#5) : decodeThumb h =
    if h.getLsbD 10 then
      (if h.getLsbD 9 then .tSubImm3 (tfld h 6 3) (tfld h 3 3) (tfld h 0 3) else .tAddImm3 (tfld h 6 3) (tfld h 3 3) (tfld h 0 3))
    else if h.getLsbD 9 then .tSubReg (tfld h 6 3) (tfld h 3 3) (tfld h 0 3)
    else .tAddReg (tfld h 6 3) (tfld h 3 3) (tfld h 0 3) := by
  rw [decodeThumb, hg]
  cases h.getLsbD 10 <;> cases h.getLsbD 9 <;> rfl

theorem decodeThumb_format4and5 (hg : tfld h 11 5 = 0b01000#5) :
    decodeThumb h = if h.getLsbD 10 then decodeThumbHi h else decodeThumbAlu h := by
  rw [decodeThumb, hg]
  rfl

/-- Bit 11 is not one of the constant bits of formats 7 and 8, nor of the two pairs of rows below. -/
theorem decodeThumb_regOffset (hg : tfld h 11 5 = 0b01010#5 ∨ tfld h 11 5 = 0b01011#5) : decodeThumb h = decodeThumbRegOffset h := by
  rcases hg with hg | hg <;> rw [decodeThumb, hg] <;> rfl

theorem decodeThumb_misc (hg : tfld h 11 5 = 0b10110#5 ∨ tfld h 11 5 = 0b10111#5) : decodeThumb h = decodeThumbMisc h := by
  rcases hg with hg | hg <;> rw [decodeThumb, hg] <;> rfl

theorem decodeThumb_cond (hg : tfld h 11 5 = 0b11010#5 ∨ tfld h 11 5 = 0b11011#5) : decodeThumb h = decodeThumbCond h := by
  rcases hg with hg | hg <;> rw [decodeThumb, hg] <;> rfl

end

/-! ## Thumb: the rows -/

/-- Formats 1, 9 and 10 (R200, R208, R209). -/
theorem roundTrips_offset5 :
    (∀ n a b, RoundTrips (.tLslImm n a b)) ∧
    (∀ n a b, RoundTrips (.tLsrImm n a b)) ∧
    (∀ n a b, RoundTrips (.tAsrImm n a b)) ∧
    (∀ n a b, RoundTrips (.tStrImm n a b)) ∧
    (∀ n a b, RoundTrips (.tLdrImm n a b)) ∧
    (∀ n a b, RoundTrips (.tStrbImm n a b)) ∧
    (∀ n a b, RoundTrips (.tLdrbImm n a b)) ∧
    (∀ n a b, RoundTrips (.tStrhImm n a b)) ∧
    (∀ n a b, RoundTrips (.tLdrhImm n a b)) := by
  and_intros
  all_goals
    intros
    refine roundTrips_thumb rfl rfl fun h _ hx => ?_
    obtain ⟨hg, rfl, rfl, rfl⟩ := hasBits_offset5.mp hx
    rw [decodeThumb, hg]
    rfl

/-- Formats 3, 6, 11, 12 and 15 (R202, R205, R210, R211, R214). -/
theorem roundTrips_imm8 :
    (∀ a k, RoundTrips (.tMovImm a k)) ∧
    (∀ a k, RoundTrips (.tCmpImm a k)) ∧
    (∀ a k, RoundTrips (.tAddImm a k)) ∧
    (∀ a k, RoundTrips (.tSubImm a k)) ∧
    (∀ a k, RoundTrips (.tLdrPc a k)) ∧
    (∀ a k, RoundTrips (.tStrSp a k)) ∧
    (∀ a k, RoundTrips (.tLdrSp a k)) ∧
    (∀ a k, RoundTrips (.tAddPc a k)) ∧
    (∀ a k, RoundTrips (.tAddSp a k)) ∧
    (∀ a k, RoundTrips (.tStmia a k)) ∧
    (∀ a k, RoundTrips (.tLdmia a k)) := by
  and_intros
  all_goals
    intros
    refine roundTrips_thumb rfl rfl fun h _ hx => ?_
    obtain ⟨hg, rfl, rfl⟩ := hasBits_imm8.mp hx
    rw [decodeThumb, hg]
    rfl

/-- Formats 18 and 19, and the UNDEFINED rows behind format 18 (R217, R218, R220 b). -/
theorem roundTrips_offset11 :
    (∀ n, RoundTrips (.tB n)) ∧
    (∀ n, RoundTrips (.tUnd11101 n)) ∧
    (∀ n, RoundTrips (.tBl1 n)) ∧
    (∀ n, RoundTrips (.tBl2 n)) := by
  and_intros
  all_goals
    intros
    refine roundTrips_thumb rfl rfl fun h _ hx => ?_
    obtain ⟨hg, rfl⟩ := hasBits_offset11.mp hx
    rw [decodeThumb, hg]
    rfl

/-- Format 2 (R201). -/
theorem roundTrips_format2 :
    (∀ a b d, RoundTrips (.tAddReg a b d)) ∧
    (∀ a b d, RoundTrips (.tSubReg a b d)) ∧
    (∀ a b d, RoundTrips (.tAddImm3 a b d)) ∧
    (∀ a b d, RoundTrips (.tSubImm3 a b d)) := by
  and_intros
  all_goals
    intros
    refine roundTrips_thumb rfl rfl fun h _ hx => ?_
    simp only [hasBits_append] at hx
    simp [HasBits] at hx
    rw [decodeThumb_format2 (by simp [tfld, hx])]
    simp [tfld, hx]

/-- Format 4 (R203). -/
theorem roundTrips_thumbAluRow (op : BitVec 4) (rs rd : LowReg) : RoundTrips (thumbAluRow op rs rd) := by
  obtain ⟨hc, _, henc⟩ := thumbAluRow_layout op rs rd
  refine roundTrips_thumb hc henc fun h _ hx => ?_
  simp only [hasBits_append] at hx
  simp [HasBits] at hx
  obtain ⟨⟨⟨hg, rfl⟩, rfl⟩, rfl⟩ := hx
  have hdec : decodeThumb h = decodeThumbAlu h := by rw [decodeThumb_format4and5 (by simp [tfld, hg])]; simp [hg]
  rw [hdec, decodeThumbAlu_eq]
  rfl

/-- Format 5 (R204). -/
theorem roundTrips_format5 :
    (∀ h1 h2 rs rd, RoundTrips (.tAddHi h1 h2 rs rd)) ∧
    (∀ h1 h2 rs rd, RoundTrips (.tCmpHi h1 h2 rs rd)) ∧
    (∀ h1 h2 rs rd, RoundTrips (.tMovHi h1 h2 rs rd)) ∧
    (∀ h1 h2 rs rd, RoundTrips (.tBx h1 h2 rs rd)) := by
  and_intros
  all_goals
    intros
    refine roundTrips_thumb rfl rfl fun h _ hx => ?_
    simp only [hasBits_append] at hx
    simp [HasBits] at hx
    rw [decodeThumb_format4and5 (by simp [tfld, hx])]
    simp [decodeThumbHi, tfld, toNat_extractLsb'_succ, hx, -BitVec.extractLsb'_toNat]

/-- Formats 7 and 8 (R206, R207). -/
theorem roundTrips_format7and8 :
    (∀ a b d, RoundTrips (.tStrReg a b d)) ∧
    (∀ a b d, RoundTrips (.tStrhReg a b d)) ∧
    (∀ a b d, RoundTrips (.tStrbReg a b d)) ∧
    (∀ a b d, RoundTrips (.tLdsbReg a b d)) ∧
    (∀ a b d, RoundTrips (.tLdrReg a b d)) ∧
    (∀ a b d, RoundTrips (.tLdrhReg a b d)) ∧
    (∀ a b d, RoundTrips (.tLdrbReg a b d)) ∧
    (∀ a b d, RoundTrips (.tLdshReg a b d)) := by
  and_intros
  all_goals
    intros
    refine roundTrips_thumb rfl rfl fun h _ hx => ?_
    simp only [hasBits_append] at hx
    simp [HasBits] at hx
    rw [decodeThumb_regOffset (by simp [tfld, hx])]
    simp [decodeThumbRegOffset, tfld, toNat_extractLsb'_succ, hx, -BitVec.extractLsb'_toNat]

/-- Formats 13 and 14 (R212, R213). -/
theorem roundTrips_stack :
    (∀ j, RoundTrips (.tIncSp j)) ∧
    (∀ j, RoundTrips (.tDecSp j)) ∧
    (∀ r k, RoundTrips (.tPush r k)) ∧
    (∀ r k, RoundTrips (.tPop r k)) := by
  and_intros
  all_goals
    intros
    refine roundTrips_thumb rfl rfl fun h _ hx => ?_
    simp only [hasBits_append] at hx
    simp [HasBits] at hx
    rw [decodeThumb_misc (by simp [tfld, hx])]
    simp [decodeThumbMisc, tfld, hx]

/-- Format 17 and the UNDEFINED 0xDExx (R216, R220 a). -/
theorem roundTrips_swi :
    (∀ k, RoundTrips (.tUndDE k)) ∧
    (∀ k, RoundTrips (.tSwi k)) := by
  and_intros
  all_goals
    intros
    refine roundTrips_thumb rfl rfl fun h _ hx => ?_
    simp only [hasBits_append] at hx
    simp [HasBits] at hx
    rw [decodeThumb_cond (by simp [tfld, hx])]
    simp [decodeThumbCond, tfld, hx]

/-- The UNDEFINED rest of 0xBxxx (R220 c): the halfwords that formats 13 and 14 leave it. -/
theorem roundTrips_tUnd1011 (body : BitVec 12) : RoundTrips (.tUnd1011 body) := by
  refine roundTrips_thumb rfl rfl fun h he hx => ?_
  simp only [hasBits_append] at hx
  simp [HasBits] at hx
  obtain ⟨hbits, rfl⟩ := hx
  simp [encodable_tUnd1011] at he
  have hdec : decodeThumb h = decodeThumbMisc h := decodeThumb_misc (by cases h11 : h[11] <;> simp [tfld, hbits, h11])
  simp [hdec, decodeThumbMisc, tfld]
  grind

/-- The conditional branch (R215): its conditions 14 and 15 are the UNDEFINED 0xDExx and SWI. -/
theorem roundTrips_tBCond (c : Cond) (n : BitVec 8) : RoundTrips (.tBCond c n) := by
  refine roundTrips_thumb rfl rfl fun h he hx => ?_
  simp only [hasBits_append] at hx
  simp [HasBits] at hx
  obtain ⟨⟨hbits, rfl⟩, rfl⟩ := hx
  simp [encodable_tBCond, Cond.ofBits_eq_al, Cond.ofBits_eq_nv] at he
  have hdec : decodeThumb h = decodeThumbCond h := decodeThumb_cond (by cases h11 : h[11] <;> simp [tfld, hbits, h11])
  simp [hdec, decodeThumbCond, tfld]
  grind

/-! ## All rows -/

/-- Every row is decoded from its encoding. -/
theorem roundTrips (i : Instr) : RoundTrips i := by
  cases i
  case andShiftImm c s rn rd o => exact roundTrips_dpShiftImmRow 0 c s rn rd o rfl
  case eorShiftImm c s rn rd o => exact roundTrips_dpShiftImmRow 1 c s rn rd o rfl
  case subShiftImm c s rn rd o => exact roundTrips_dpShiftImmRow 2 c s rn rd o rfl
  case rsbShiftImm c s rn rd o => exact roundTrips_dpShiftImmRow 3 c s rn rd o rfl
  case addShiftImm c s rn rd o => exact roundTrips_dpShiftImmRow 4 c s rn rd o rfl
  case adcShiftImm c s rn rd o => exact roundTrips_dpShiftImmRow 5 c s rn rd o rfl
  case sbcShiftImm c s rn rd o => exact roundTrips_dpShiftImmRow 6 c s rn rd o rfl
  case rscShiftImm c s rn rd o => exact roundTrips_dpShiftImmRow 7 c s rn rd o rfl
  case tstShiftImm c rn rd o => exact roundTrips_dpShiftImmRow 8 c true rn rd o rfl
  case teqShiftImm c rn rd o => exact roundTrips_dpShiftImmRow 9 c true rn rd o rfl
  case cmpShiftImm c rn rd o => exact roundTrips_dpShiftImmRow 10 c true rn rd o rfl
  case cmnShiftImm c rn rd o => exact roundTrips_dpShiftImmRow 11 c true rn rd o rfl
  case orrShiftImm c s rn rd o => exact roundTrips_dpShiftImmRow 12 c s rn rd o rfl
  case movShiftImm c s rn rd o => exact roundTrips_dpShiftImmRow 13 c s rn rd o rfl
  case bicShiftImm c s rn rd o => exact roundTrips_dpShiftImmRow 14 c s rn rd o rfl
  case mvnShiftImm c s rn rd o => exact roundTrips_dpShiftImmRow 15 c s rn rd o rfl
  case andShiftReg c s rn rd o => exact roundTrips_dpShiftRegRow 0 c s rn rd o rfl
  case eorShiftReg c s rn rd o => exact roundTrips_dpShiftRegRow 1 c s rn rd o rfl
  case subShiftReg c s rn rd o => exact roundTrips_dpShiftRegRow 2 c s rn rd o rfl
  case rsbShiftReg c s rn rd o => exact roundTrips_dpShiftRegRow 3 c s rn rd o rfl
  case addShiftReg c s rn rd o => exact roundTrips_dpShiftRegRow 4 c s rn rd o rfl
  case adcShiftReg c s rn rd o => exact roundTrips_dpShiftRegRow 5 c s rn rd o rfl
  case sbcShiftReg c s rn rd o => exact roundTrips_dpShiftRegRow 6 c s rn rd o rfl
  case rscShiftReg c s rn rd o => exact roundTrips_dpShiftRegRow 7 c s rn rd o rfl
  case tstShiftReg c rn rd o => exact roundTrips_dpShiftRegRow 8 c true rn rd o rfl
  case teqShiftReg c rn rd o => exact roundTrips_dpShiftRegRow 9 c true rn rd o rfl
  case cmpShiftReg c rn rd o => exact roundTrips_dpShiftRegRow 10 c true rn rd o rfl
  case cmnShiftReg c rn rd o => exact roundTrips_dpShiftRegRow 11 c true rn rd o rfl
  case orrShiftReg c s rn rd o => exact roundTrips_dpShiftRegRow 12 c s rn rd o rfl
  case movShiftReg c s rn rd o => exact roundTrips_dpShiftRegRow 13 c s rn rd o rfl
  case bicShiftReg c s rn rd o => exact roundTrips_dpShiftRegRow 14 c s rn rd o rfl
  case mvnShiftReg c s rn rd o => exact roundTrips_dpShiftRegRow 15 c s rn rd o rfl
  case andImm c s rn rd o => exact roundTrips_dpImmRow 0 c s rn rd o rfl
  case eorImm c s rn rd o => exact roundTrips_dpImmRow 1 c s rn rd o rfl
  case subImm c s rn rd o => exact roundTrips_dpImmRow 2 c s rn rd o rfl
  case rsbImm c s rn rd o => exact roundTrips_dpImmRow 3 c s rn rd o rfl
  case addImm c s rn rd o => exact roundTrips_dpImmRow 4 c s rn rd o rfl
  case adcImm c s rn rd o => exact roundTrips_dpImmRow 5 c s rn rd o rfl
  case sbcImm c s rn rd o => exact roundTrips_dpImmRow 6 c s rn rd o rfl
  case rscImm c s rn rd o => exact roundTrips_dpImmRow 7 c s rn rd o rfl
  case tstImm c rn rd o => exact roundTrips_dpImmRow 8 c true rn rd o rfl
  case teqImm c rn rd o => exact roundTrips_dpImmRow 9 c true rn rd o rfl
  case cmpImm c rn rd o => exact roundTrips_dpImmRow 10 c true rn rd o rfl
  case cmnImm c rn rd o => exact roundTrips_dpImmRow 11 c true rn rd o rfl
  case orrImm c s rn rd o => exact roundTrips_dpImmRow 12 c s rn rd o rfl
  case movImm c s rn rd o => exact roundTrips_dpImmRow 13 c s rn rd o rfl
  case bicImm c s rn rd o => exact roundTrips_dpImmRow 14 c s rn rd o rfl
  case mvnImm c s rn rd o => exact roundTrips_dpImmRow 15 c s rn rd o rfl
  case tAnd rs rd => exact roundTrips_thumbAluRow 0 rs rd
  case tEor rs rd => exact roundTrips_thumbAluRow 1 rs rd
  case tLsl rs rd => exact roundTrips_thumbAluRow 2 rs rd
  case tLsr rs rd => exact roundTrips_thumbAluRow 3 rs rd
  case tAsr rs rd => exact roundTrips_thumbAluRow 4 rs rd
  case tAdc rs rd => exact roundTrips_thumbAluRow 5 rs rd
  case tSbc rs rd => exact roundTrips_thumbAluRow 6 rs rd
  case tRor rs rd => exact roundTrips_thumbAluRow 7 rs rd
  case tTst rs rd => exact roundTrips_thumbAluRow 8 rs rd
  case tNeg rs rd => exact roundTrips_thumbAluRow 9 rs rd
  case tCmp rs rd => exact roundTrips_thumbAluRow 10 rs rd
  case tCmn rs rd => exact roundTrips_thumbAluRow 11 rs rd
  case tOrr rs rd => exact roundTrips_thumbAluRow 12 rs rd
  case tMul rs rd => exact roundTrips_thumbAluRow 13 rs rd
  case tBic rs rd => exact roundTrips_thumbAluRow 14 rs rd
  case tMvn rs rd => exact roundTrips_thumbAluRow 15 rs rd
  all_goals
    simp only [roundTrips_multiply, roundTrips_swap, roundTrips_mode3, roundTrips_control, roundTrips_msrImm, roundTrips_singleUser,
      roundTrips_single, roundTrips_block, roundTrips_branch, roundTrips_group7, roundTrips_copMem, roundTrips_undefined,
      roundTrips_offset5, roundTrips_imm8, roundTrips_offset11, roundTrips_format2, roundTrips_format5, roundTrips_format7and8,
      roundTrips_stack, roundTrips_swi, roundTrips_tUnd1011, roundTrips_tBCond]

/-- Settles O1. -/
theorem armDecodeEncode : Obligations.ArmDecodeEncode := by
  unfold Obligations.ArmDecodeEncode
  intro i c hc he
  have hrt := roundTrips i he
  rwa [hc] at hrt

/-- Settles O2. -/
theorem thumbDecodeEncode : Obligations.ThumbDecodeEncode := by
  unfold Obligations.ThumbDecodeEncode
  intro i hc he
  have hrt := roundTrips i he
  rwa [hc] at hrt

end Sys2Proof
end

section
/-!
PROOFS. 30_encoding.md R172, R196, R221: no bit is dropped in decoding. Each part of the decoder gives a row that spells the word it was
given: the bits that chose the row are the row's constants (`hasBits_append`), and all the others are in its fields.
-/

namespace Sys2Proof

/-- The instruction spells the ARM word `w`: it is encodable, has the condition of bits 31:28, and its encoding is `w`. -/
def SpellsArm (w : Word) (i : Instr) : Prop :=
  Machine.Instr.cond i = some (Cond.ofBits (fld w 28 4)) ∧ Instr.encodable i = true ∧ encode i = .arm w

/-- The instruction spells the Thumb halfword `h`. -/
def SpellsThumb (h : Half) (i : Instr) : Prop :=
  Machine.Instr.cond i = none ∧ Instr.encodable i = true ∧ encode i = .thumb h

/-! ## Group 000 -/

section
variable {w : Word}

/-- Multiplies and the arithmetic extension space (R177, R178, R191). -/
theorem spellsArm_decodeMul (hg : fld w 25 3 = 0b000#3) (h74 : (w.getLsbD 7 && w.getLsbD 4) = true)
    (h65 : fld w 5 2 = 0b00#2) (h24 : ¬w.getLsbD 24 = true) : SpellsArm w (decodeMul (Cond.ofBits (fld w 28 4)) w) := by
  unfold decodeMul
  split_ifs
  all_goals
    simp [fld] at *
    refine ⟨rfl, ?_, arm_eq_iff.mpr (by simp only [hasBits_append]; simp [HasBits, *])⟩
  any_goals rfl
  simp [encodable_undArith, *]

/-- Swap and the load/store extension space (R179, R193 a). -/
theorem spellsArm_decodeSwap (hg : fld w 25 3 = 0b000#3) (h74 : (w.getLsbD 7 && w.getLsbD 4) = true)
    (h65 : fld w 5 2 = 0b00#2) (h24 : w.getLsbD 24 = true) : SpellsArm w (decodeSwap (Cond.ofBits (fld w 28 4)) w) := by
  unfold decodeSwap
  split_ifs
  all_goals
    simp [fld] at *
    refine ⟨rfl, ?_, arm_eq_iff.mpr (by simp only [hasBits_append]; simp [HasBits, *])⟩
  any_goals rfl
  simp [encodable_undLsA, *]
  grind

/-- Halfword and signed transfers and their UNDEFINED stores (R181, R193 b). -/
theorem spellsArm_decodeMode3 (hg : fld w 25 3 = 0b000#3) (h74 : (w.getLsbD 7 && w.getLsbD 4) = true)
    (h65 : ¬fld w 5 2 = 0b00#2) : SpellsArm w (decodeMode3 (Cond.ofBits (fld w 28 4)) w) := by
  have h5 : w.getLsbD 6 = false → w.getLsbD 5 = true := by
    simp [fld] at h65
    grind
  unfold decodeMode3
  split_ifs
  all_goals
    simp [fld, mode3Of] at *
    refine ⟨rfl, ?_, arm_eq_iff.mpr (by simp only [hasBits_append]; simp [HasBits, *])⟩
  any_goals rfl
  simp [encodable_undLsB, *]

/-- The control extension space (R180, R182, R192). -/
theorem spellsArm_decodeControl (hg : fld w 25 3 = 0b000#3) (h74 : ¬(w.getLsbD 7 && w.getLsbD 4) = true)
    (hc : fld w 23 2 = 0b10#2 ∧ w.getLsbD 20 = false) : SpellsArm w (decodeControl (Cond.ofBits (fld w 28 4)) w) := by
  unfold decodeControl
  split_ifs
  all_goals
    simp [fld] at *
    refine ⟨rfl, ?_, arm_eq_iff.mpr (by simp only [hasBits_append]; simp [HasBits, *])⟩
  any_goals rfl
  simp [encodable_undCtlReg, hg, hc]
  grind

/-- Data processing with an immediate shift (R175, R176). -/
theorem spellsArm_decodeDpShiftImm (hg : fld w 25 3 = 0b000#3) (hc : ¬(fld w 23 2 = 0b10#2 ∧ w.getLsbD 20 = false))
    (h4 : ¬w.getLsbD 4 = true) :
    SpellsArm w (decodeDpShiftImm (Cond.ofBits (fld w 28 4)) w) := by
  obtain ⟨hcond, henc, hlayout⟩ := dpShiftImmRow_layout (Cond.ofBits (fld w 28 4)) (fld w 16 4) (fld w 12 4) (shiftImmOf w)
    (comparesOnlyWithS_fld.mpr hc)
  refine ⟨hcond, henc, hlayout.trans (arm_eq_iff.mpr ?_)⟩
  simp [fld] at hg h4
  simp only [hasBits_append]
  simp [HasBits, shiftImmOf, fld, *]

/-- Data processing with a register shift (R175, R176). -/
theorem spellsArm_decodeDpShiftReg (hg : fld w 25 3 = 0b000#3) (h74 : ¬(w.getLsbD 7 && w.getLsbD 4) = true)
    (hc : ¬(fld w 23 2 = 0b10#2 ∧ w.getLsbD 20 = false)) (h4 : w.getLsbD 4 = true) :
    SpellsArm w (decodeDpShiftReg (Cond.ofBits (fld w 28 4)) w) := by
  obtain ⟨hcond, henc, hlayout⟩ := dpShiftRegRow_layout (Cond.ofBits (fld w 28 4)) (fld w 16 4) (fld w 12 4) (shiftRegOf w)
    (comparesOnlyWithS_fld.mpr hc)
  refine ⟨hcond, henc, hlayout.trans (arm_eq_iff.mpr ?_)⟩
  simp [h4] at h74
  simp [fld] at hg h4 h74
  simp only [hasBits_append]
  simp [HasBits, shiftRegOf, fld, *]

theorem spellsArm_decodeGroup0 (hg : fld w 25 3 = 0b000#3) : SpellsArm w (decodeGroup0 (Cond.ofBits (fld w 28 4)) w) := by
  unfold decodeGroup0
  split_ifs with h74 h65 h24 hc h4
  · exact spellsArm_decodeSwap hg h74 h65 h24
  · exact spellsArm_decodeMul hg h74 h65 h24
  · exact spellsArm_decodeMode3 hg h74 h65
  · exact spellsArm_decodeControl hg h74 hc
  · exact spellsArm_decodeDpShiftReg hg h74 hc h4
  · exact spellsArm_decodeDpShiftImm hg hc h4

/-! ## The other groups -/

/-- Data processing with an immediate operand (R175, R176). -/
theorem spellsArm_decodeDpImm (hg : fld w 25 3 = 0b001#3) (hc : ¬(fld w 23 2 = 0b10#2 ∧ w.getLsbD 20 = false)) :
    SpellsArm w (decodeDpImm (Cond.ofBits (fld w 28 4)) w) := by
  obtain ⟨hcond, henc, hlayout⟩ := dpImmRow_layout (Cond.ofBits (fld w 28 4)) (fld w 16 4) (fld w 12 4) (rotImmOf w)
    (comparesOnlyWithS_fld.mpr hc)
  refine ⟨hcond, henc, hlayout.trans (arm_eq_iff.mpr ?_)⟩
  simp [fld] at hg
  simp only [hasBits_append]
  simp [HasBits, rotImmOf, fld, *]

/-- MSR from an immediate and the control extension space (R182, R192). -/
theorem spellsArm_decodeGroup1 (hg : fld w 25 3 = 0b001#3) : SpellsArm w (decodeGroup1 (Cond.ofBits (fld w 28 4)) w) := by
  unfold decodeGroup1
  split_ifs with hc h21
  · simp [fld, rotImmOf] at *
    exact ⟨rfl, rfl, arm_eq_iff.mpr (by simp only [hasBits_append]; simp [HasBits, *])⟩
  · simp [fld] at *
    exact ⟨rfl, by simp [encodable_undCtlImm, *], arm_eq_iff.mpr (by simp only [hasBits_append]; simp [HasBits])⟩
  · exact spellsArm_decodeDpImm hg hc

/-- P of the index form of a P and a W that are not the user-access ones is P, and its W is W (R342). -/
theorem Index.p_ofBits {p w : Bool} : (Index.ofBits p w != .post) = p := by cases p <;> cases w <;> rfl

theorem Index.w_ofBits {p w : Bool} (h : ¬(!p && w) = true) : (Index.ofBits p w == .pre) = w := by
  cases p <;> cases w <;> simp at h <;> rfl

/-- The word and byte transfers of groups 010 and 011 (R183). -/
theorem spellsArm_decodeSingle (hg : fld w 26 2 = 0b01#2) (h4 : w.getLsbD 25 = true → ¬w.getLsbD 4 = true) :
    SpellsArm w (decodeSingle (Cond.ofBits (fld w 28 4)) w) := by
  unfold decodeSingle
  split_ifs with huser
  all_goals
    split
    all_goals
      have hp := Index.p_ofBits (p := w.getLsbD 24) (w := w.getLsbD 21)
      have hw := Index.w_ofBits (p := w.getLsbD 24) (w := w.getLsbD 21)
      simp only [huser] at hw
      simp [fld, shiftImmOf, mode2Of] at *
      refine ⟨rfl, rfl, arm_eq_iff.mpr ?_⟩
      simp only [hasBits_append]
      simp [HasBits, *]

/-- The block transfers (R184). -/
theorem spellsArm_decodeBlock (hg : fld w 25 3 = 0b100#3) : SpellsArm w (decodeBlock (Cond.ofBits (fld w 28 4)) w) := by
  unfold decodeBlock
  split_ifs
  all_goals
    simp [fld] at *
    refine ⟨rfl, rfl, arm_eq_iff.mpr (by simp only [hasBits_append]; simp [HasBits, *])⟩

/-- LDC, STC and the UNDEFINED row ahead of them (R186, R194). -/
theorem spellsArm_decodeGroup6 (hg : fld w 25 3 = 0b110#3) : SpellsArm w (decodeGroup6 (Cond.ofBits (fld w 28 4)) w) := by
  unfold decodeGroup6
  split_ifs with hund h20
  all_goals
    simp [fld, copMemOf] at *
    refine ⟨rfl, ?_, arm_eq_iff.mpr (by simp only [hasBits_append]; simp [HasBits, *])⟩
  · simp [encodable_undCop, *]
  · simp [encodable_ldc]
    grind
  · simp [encodable_stc]
    grind

/-- SWI and the coprocessor operations (R187 to R189). -/
theorem spellsArm_decodeGroup7 (hg : fld w 25 3 = 0b111#3) : SpellsArm w (decodeGroup7 (Cond.ofBits (fld w 28 4)) w) := by
  unfold decodeGroup7
  split_ifs
  all_goals
    simp [fld, copRegOf, copDataOf] at *
    refine ⟨rfl, rfl, arm_eq_iff.mpr (by simp only [hasBits_append]; simp [HasBits, *])⟩

/-- The eight groups of bits 27:25. -/
theorem group_cases : ∀ g : BitVec 3, g = 0b000#3 ∨ g = 0b001#3 ∨ g = 0b010#3 ∨ g = 0b011#3 ∨ g = 0b100#3 ∨ g = 0b101#3 ∨
    g = 0b110#3 ∨ g = 0b111#3 := by decide

/-- The branches (R185). -/
theorem spellsArm_branch (hg : fld w 25 3 = 0b101#3) :
    SpellsArm w (if w.getLsbD 24 then .bl (Cond.ofBits (fld w 28 4)) (fld w 0 24) else .b (Cond.ofBits (fld w 28 4)) (fld w 0 24)) := by
  split_ifs
  all_goals
    simp [fld] at *
    refine ⟨rfl, rfl, arm_eq_iff.mpr (by simp only [hasBits_append]; simp [HasBits, *])⟩

/-- The register transfers, and the architecturally UNDEFINED space (R183, R190). -/
theorem spellsArm_group3 (hg : fld w 25 3 = 0b011#3) :
    SpellsArm w (if w.getLsbD 4 then .undSpace (Cond.ofBits (fld w 28 4)) (fld w 0 28)
      else decodeSingle (Cond.ofBits (fld w 28 4)) w) := by
  simp [fld] at hg
  split_ifs with h4
  · simp at h4
    refine ⟨rfl, by simp [encodable_undSpace, fld, *], arm_eq_iff.mpr ?_⟩
    simp only [hasBits_append]
    simp [HasBits, fld]
  · exact spellsArm_decodeSingle (by simp [fld, hg]) fun _ => h4

/-- Every ARM word is spelled by what it decodes to (R196). -/
theorem spellsArm_decodeArm (w : Word) : SpellsArm w (decodeArm w) := by
  unfold decodeArm
  rcases group_cases (fld w 25 3) with hg | hg | hg | hg | hg | hg | hg | hg <;> rw [hg]
  · exact spellsArm_decodeGroup0 hg
  · exact spellsArm_decodeGroup1 hg
  · simp [fld] at hg
    exact spellsArm_decodeSingle (by simp [fld, hg]) (by simp [hg])
  · exact spellsArm_group3 hg
  · exact spellsArm_decodeBlock hg
  · exact spellsArm_branch hg
  · exact spellsArm_decodeGroup6 hg
  · exact spellsArm_decodeGroup7 hg

end

/-! ## Thumb -/

section
variable {h : Half}

/-- Format 4 (R203). -/
theorem spellsThumb_decodeThumbAlu (hg : tfld h 10 6 = 0b010000#6) : SpellsThumb h (decodeThumbAlu h) := by
  obtain ⟨hcond, henc, hlayout⟩ := thumbAluRow_layout (tfld h 6 4) (tfld h 3 3) (tfld h 0 3)
  refine ⟨hcond, henc, hlayout.trans (thumb_eq_iff.mpr ?_)⟩
  simp [tfld] at hg
  simp only [hasBits_append]
  simp [HasBits, tfld, *]

/-- Format 5 (R204). -/
theorem spellsThumb_decodeThumbHi (hg : tfld h 10 6 = 0b010001#6) : SpellsThumb h (decodeThumbHi h) := by
  simp [tfld] at hg
  cases h9 : h[9] <;> cases h8 : h[8]
  all_goals
    simp [decodeThumbHi, tfld, toNat_extractLsb'_succ, h8, h9, -BitVec.extractLsb'_toNat]
    refine ⟨rfl, rfl, thumb_eq_iff.mpr ?_⟩
    simp only [hasBits_append]
    simp [HasBits, *]

/-- Formats 7 and 8 (R206, R207). -/
theorem spellsThumb_decodeThumbRegOffset (hg : tfld h 12 4 = 0b0101#4) : SpellsThumb h (decodeThumbRegOffset h) := by
  simp [tfld] at hg
  cases h11 : h[11] <;> cases h10 : h[10] <;> cases h9 : h[9]
  all_goals
    simp [decodeThumbRegOffset, tfld, toNat_extractLsb'_succ, h9, h10, h11, -BitVec.extractLsb'_toNat]
    refine ⟨rfl, rfl, thumb_eq_iff.mpr ?_⟩
    simp only [hasBits_append]
    simp [HasBits, *]

/-- Formats 13 and 14 and the UNDEFINED rest of 0xBxxx (R212, R213, R220 c). -/
theorem spellsThumb_decodeThumbMisc (hg : tfld h 12 4 = 0b1011#4) : SpellsThumb h (decodeThumbMisc h) := by
  simp [tfld] at hg
  unfold decodeThumbMisc
  split_ifs with h0 h7 h10 h11
  all_goals
    simp [tfld] at *
    refine ⟨rfl, ?_, thumb_eq_iff.mpr (by simp only [hasBits_append]; simp [HasBits, *])⟩
  · rfl
  · rfl
  · rfl
  · rfl
  · simpa [encodable_tUnd1011] using ⟨h0, h10⟩

/-- Formats 16 and 17 and the UNDEFINED 0xDExx (R215, R216, R220 a). -/
theorem spellsThumb_decodeThumbCond (hg : tfld h 12 4 = 0b1101#4) : SpellsThumb h (decodeThumbCond h) := by
  simp [tfld] at hg
  unfold decodeThumbCond
  split_ifs with hswi hund
  all_goals
    simp [tfld] at *
    refine ⟨rfl, ?_, thumb_eq_iff.mpr (by simp only [hasBits_append]; simp [HasBits, *])⟩
  · rfl
  · rfl
  · simpa [encodable_tBCond, Cond.ofBits_eq_al, Cond.ofBits_eq_nv] using ⟨hund, hswi⟩

/-- Bits 15:11 of the rows with an offset of five bits. -/
def offset5Rows : List (BitVec 5) :=
  [0b00000#5, 0b00001#5, 0b00010#5, 0b01100#5, 0b01101#5, 0b01110#5, 0b01111#5, 0b10000#5, 0b10001#5]

/-- Bits 15:11 of the rows with an immediate of eight bits. -/
def imm8Rows : List (BitVec 5) :=
  [0b00100#5, 0b00101#5, 0b00110#5, 0b00111#5, 0b01001#5, 0b10010#5, 0b10011#5, 0b10100#5, 0b10101#5, 0b11000#5, 0b11001#5]

/-- Bits 15:11 of the rows with an offset of eleven bits. -/
def offset11Rows : List (BitVec 5) := [0b11100#5, 0b11101#5, 0b11110#5, 0b11111#5]

/-- Formats 1, 9 and 10 (R200, R208, R209). -/
theorem spellsThumb_offset5 (hg : tfld h 11 5 ∈ offset5Rows) : SpellsThumb h (decodeThumb h) := by
  have hbits := thumb_eq_iff.mpr (hasBits_offset5 (h := h).mpr ⟨rfl, rfl, rfl, rfl⟩)
  unfold decodeThumb
  generalize tfld h 11 5 = g at hg hbits
  simp only [offset5Rows, List.mem_cons, List.not_mem_nil, or_false] at hg
  rcases hg with rfl | rfl | rfl | rfl | rfl | rfl | rfl | rfl | rfl
  all_goals exact ⟨rfl, rfl, hbits⟩

/-- Formats 3, 6, 11, 12 and 15 (R202, R205, R210, R211, R214). -/
theorem spellsThumb_imm8 (hg : tfld h 11 5 ∈ imm8Rows) : SpellsThumb h (decodeThumb h) := by
  have hbits := thumb_eq_iff.mpr (hasBits_imm8 (h := h).mpr ⟨rfl, rfl, rfl⟩)
  unfold decodeThumb
  generalize tfld h 11 5 = g at hg hbits
  simp only [imm8Rows, List.mem_cons, List.not_mem_nil, or_false] at hg
  rcases hg with rfl | rfl | rfl | rfl | rfl | rfl | rfl | rfl | rfl | rfl | rfl
  all_goals exact ⟨rfl, rfl, hbits⟩

/-- Formats 18 and 19, and the UNDEFINED rows behind format 18 (R217, R218, R220 b). -/
theorem spellsThumb_offset11 (hg : tfld h 11 5 ∈ offset11Rows) : SpellsThumb h (decodeThumb h) := by
  have hbits := thumb_eq_iff.mpr (hasBits_offset11 (h := h).mpr ⟨rfl, rfl⟩)
  unfold decodeThumb
  generalize tfld h 11 5 = g at hg hbits
  simp only [offset11Rows, List.mem_cons, List.not_mem_nil, or_false] at hg
  rcases hg with rfl | rfl | rfl | rfl
  all_goals exact ⟨rfl, rfl, hbits⟩

/-- Format 2 (R201). -/
theorem spellsThumb_format2 (hg : tfld h 11 5 = 0b00011#5) : SpellsThumb h (decodeThumb h) := by
  rw [decodeThumb_format2 hg]
  split_ifs
  all_goals
    simp [tfld] at *
    refine ⟨rfl, rfl, thumb_eq_iff.mpr (by simp only [hasBits_append]; simp [HasBits, *])⟩

/-- Formats 4 and 5 (R203, R204). -/
theorem spellsThumb_format4and5 (hg : tfld h 11 5 = 0b01000#5) : SpellsThumb h (decodeThumb h) := by
  rw [decodeThumb_format4and5 hg]
  simp [tfld] at hg
  split_ifs with h10 <;> simp at h10
  · exact spellsThumb_decodeThumbHi (by simp [tfld, *])
  · exact spellsThumb_decodeThumbAlu (by simp [tfld, *])

/-- Each value of bits 15:11 is of one of these kinds. -/
theorem thumbRow_cases : ∀ g : BitVec 5, g ∈ offset5Rows ∨ g ∈ imm8Rows ∨ g ∈ offset11Rows ∨ g = 0b00011#5 ∨ g = 0b01000#5 ∨
    (g = 0b01010#5 ∨ g = 0b01011#5) ∨ (g = 0b10110#5 ∨ g = 0b10111#5) ∨ (g = 0b11010#5 ∨ g = 0b11011#5) := by decide

/-- Every halfword is spelled by what it decodes to (R221). -/
theorem spellsThumb_decodeThumb (h : Half) : SpellsThumb h (decodeThumb h) := by
  rcases thumbRow_cases (tfld h 11 5) with hg | hg | hg | hg | hg | hg | hg | hg
  · exact spellsThumb_offset5 hg
  · exact spellsThumb_imm8 hg
  · exact spellsThumb_offset11 hg
  · exact spellsThumb_format2 hg
  · exact spellsThumb_format4and5 hg
  · rw [decodeThumb_regOffset hg]
    exact spellsThumb_decodeThumbRegOffset (by rcases hg with hg | hg <;> simp [tfld] at hg <;> simp [tfld, hg])
  · rw [decodeThumb_misc hg]
    exact spellsThumb_decodeThumbMisc (by rcases hg with hg | hg <;> simp [tfld] at hg <;> simp [tfld, hg])
  · rw [decodeThumb_cond hg]
    exact spellsThumb_decodeThumbCond (by rcases hg with hg | hg <;> simp [tfld] at hg <;> simp [tfld, hg])

end

/-- Settles O3. -/
theorem encodeDecode : Obligations.EncodeDecode := by
  unfold Obligations.EncodeDecode
  exact ⟨spellsArm_decodeArm, spellsThumb_decodeThumb⟩

end Sys2Proof
end
